-- ==== Sys2Proof/Config.lean ====
section
/-! DEFINITION. What the spec fixes for this block: the closed enumerations and constants of 00_scope.md R9,
10_state.md R34, 40_register_file_ports.md R68 and 60_exceptions.md R103. The spec leaves no parameter and no value
open (93_implementation_defined.md: "every open point was decided"), so there is no free value here. -/

namespace Sys2Proof

/-- `AritmeticTarget`, the closed enumeration of the seven 8-bit general registers (R12, R13, R15). -/
inductive Target where
  | a | b | c | d | e | h | l
deriving DecidableEq, Repr

/-- The four 16-bit paired views (R25). -/
inductive Pair where
  | af | bc | de | hl
deriving DecidableEq, Repr

/-- The eleven instruction families (R4; 90_conflicts.md C2). -/
inductive Family where
  | add | adc | sub | sbc | and | or | xor | cp | inc | dec | swap
deriving DecidableEq, Repr

/-- The five commands of the `cmd` port (R68); the reserved codes are not among them (R81). -/
inductive Command where
  | nop | exec | writeReg | setPair | setFlags
deriving DecidableEq, Repr

/-- The seven targets, in the order of their r codes (R52). -/
def Target.all : List Target := [.b, .c, .d, .e, .h, .l, .a]

/-- The eleven families, in the order of R4. -/
def Family.all : List Family := [.add, .adc, .sub, .sbc, .and, .or, .xor, .cp, .inc, .dec, .swap]

namespace Config

/-- Reset value of each general register (R34). -/
abbrev resetRegister : BitVec 8 := 0x00#8

/-- Reset value of each flag (R34). -/
abbrev resetFlag : Bool := false

/-- `fault_cause` of a block that has not faulted (R103). -/
abbrev causeNone : BitVec 2 := 0#2

/-- `fault_cause` of the unimplemented-opcode fault (R103; the numbering is decision D10). -/
abbrev causeUnimplementedOpcode : BitVec 2 := 1#2

/-- `fault_instr` of a block that has not faulted (R32, R34). -/
abbrev noFaultInstr : BitVec 9 := 0#9

/-- The byte that marks a prefixed instruction in a program (R51). -/
abbrev cbByte : BitVec 8 := 0xCB#8

end Config
end Sys2Proof
end

