-- ==== Sys2Proof/Word.lean ====
section
/-! DEFINITION. The word types: register bytes, pair words and port words (00_scope.md R9, section 6). -/

namespace Sys2Proof

/-- A register value, `u8` (R9, R15). -/
abbrev Byte := BitVec 8

/-- A pair value, `u16` (R9, R25). -/
abbrev Word := BitVec 16

/-- The 9-bit port word, cb in bit 8 and op in bits 7 to 0 (R50). -/
abbrev PortWord := BitVec 9

end Sys2Proof
end

