-- ==== Sys2Proof/Syntax.lean ====
section
/-! DEFINITION. The instructions, one constructor per row of spec/opcode_table.json, their (family, target) view
(00_scope.md R12, 30_encoding.md R66), and the input ports of one clock edge (40_register_file_ports.md R67). -/

namespace Sys2Proof

/-- The 77 instructions (R57, R65): eleven families, each on one of the seven registers. No operand is left over: the
register is part of the row (R62). -/
inductive Instr where
  | addAB | addAC | addAD | addAE | addAH | addAL | addAA
  | adcAB | adcAC | adcAD | adcAE | adcAH | adcAL | adcAA
  | subB | subC | subD | subE | subH | subL | subA
  | sbcAB | sbcAC | sbcAD | sbcAE | sbcAH | sbcAL | sbcAA
  | andB | andC | andD | andE | andH | andL | andA
  | xorB | xorC | xorD | xorE | xorH | xorL | xorA
  | orB | orC | orD | orE | orH | orL | orA
  | cpB | cpC | cpD | cpE | cpH | cpL | cpA
  | incB | incC | incD | incE | incH | incL | incA
  | decB | decC | decD | decE | decH | decL | decA
  | swapB | swapC | swapD | swapE | swapH | swapL | swapA
deriving DecidableEq, Repr

/-- The family of the decoded instruction (R12). -/
def Instr.family : Instr → Family
  | .addAB | .addAC | .addAD | .addAE | .addAH | .addAL | .addAA => .add
  | .adcAB | .adcAC | .adcAD | .adcAE | .adcAH | .adcAL | .adcAA => .adc
  | .subB | .subC | .subD | .subE | .subH | .subL | .subA => .sub
  | .sbcAB | .sbcAC | .sbcAD | .sbcAE | .sbcAH | .sbcAL | .sbcAA => .sbc
  | .andB | .andC | .andD | .andE | .andH | .andL | .andA => .and
  | .xorB | .xorC | .xorD | .xorE | .xorH | .xorL | .xorA => .xor
  | .orB | .orC | .orD | .orE | .orH | .orL | .orA => .or
  | .cpB | .cpC | .cpD | .cpE | .cpH | .cpL | .cpA => .cp
  | .incB | .incC | .incD | .incE | .incH | .incL | .incA => .inc
  | .decB | .decC | .decD | .decE | .decH | .decL | .decA => .dec
  | .swapB | .swapC | .swapD | .swapE | .swapH | .swapL | .swapA => .swap

/-- The target of the decoded instruction: the register that supplies the operand and, for INC, DEC and SWAP, receives
the result (R12). -/
def Instr.target : Instr → Target
  | .addAB | .adcAB | .subB | .sbcAB | .andB | .xorB
  | .orB | .cpB | .incB | .decB | .swapB => .b
  | .addAC | .adcAC | .subC | .sbcAC | .andC | .xorC
  | .orC | .cpC | .incC | .decC | .swapC => .c
  | .addAD | .adcAD | .subD | .sbcAD | .andD | .xorD
  | .orD | .cpD | .incD | .decD | .swapD => .d
  | .addAE | .adcAE | .subE | .sbcAE | .andE | .xorE
  | .orE | .cpE | .incE | .decE | .swapE => .e
  | .addAH | .adcAH | .subH | .sbcAH | .andH | .xorH
  | .orH | .cpH | .incH | .decH | .swapH => .h
  | .addAL | .adcAL | .subL | .sbcAL | .andL | .xorL
  | .orL | .cpL | .incL | .decL | .swapL => .l
  | .addAA | .adcAA | .subA | .sbcAA | .andA | .xorA
  | .orA | .cpA | .incA | .decA | .swapA => .a

/-- The instruction of a (family, target) pair: the source's own interface (R12, R66). -/
def Instr.ofPair : Family → Target → Instr
  | .add, .b => .addAB | .add, .c => .addAC | .add, .d => .addAD | .add, .e => .addAE
  | .add, .h => .addAH | .add, .l => .addAL | .add, .a => .addAA
  | .adc, .b => .adcAB | .adc, .c => .adcAC | .adc, .d => .adcAD | .adc, .e => .adcAE
  | .adc, .h => .adcAH | .adc, .l => .adcAL | .adc, .a => .adcAA
  | .sub, .b => .subB | .sub, .c => .subC | .sub, .d => .subD | .sub, .e => .subE
  | .sub, .h => .subH | .sub, .l => .subL | .sub, .a => .subA
  | .sbc, .b => .sbcAB | .sbc, .c => .sbcAC | .sbc, .d => .sbcAD | .sbc, .e => .sbcAE
  | .sbc, .h => .sbcAH | .sbc, .l => .sbcAL | .sbc, .a => .sbcAA
  | .and, .b => .andB | .and, .c => .andC | .and, .d => .andD | .and, .e => .andE
  | .and, .h => .andH | .and, .l => .andL | .and, .a => .andA
  | .xor, .b => .xorB | .xor, .c => .xorC | .xor, .d => .xorD | .xor, .e => .xorE
  | .xor, .h => .xorH | .xor, .l => .xorL | .xor, .a => .xorA
  | .or, .b => .orB | .or, .c => .orC | .or, .d => .orD | .or, .e => .orE
  | .or, .h => .orH | .or, .l => .orL | .or, .a => .orA
  | .cp, .b => .cpB | .cp, .c => .cpC | .cp, .d => .cpD | .cp, .e => .cpE
  | .cp, .h => .cpH | .cp, .l => .cpL | .cp, .a => .cpA
  | .inc, .b => .incB | .inc, .c => .incC | .inc, .d => .incD | .inc, .e => .incE
  | .inc, .h => .incH | .inc, .l => .incL | .inc, .a => .incA
  | .dec, .b => .decB | .dec, .c => .decC | .dec, .d => .decD | .dec, .e => .decE
  | .dec, .h => .decH | .dec, .l => .decL | .dec, .a => .decA
  | .swap, .b => .swapB | .swap, .c => .swapC | .swap, .d => .swapD | .swap, .e => .swapE
  | .swap, .h => .swapH | .swap, .l => .swapL | .swap, .a => .swapA

/-- Every instruction, family by family (R57: 8 x 7 + 2 x 7 + 1 x 7 = 77). -/
def Instr.all : List Instr := Family.all.flatMap fun f => Target.all.map fun t => Instr.ofPair f t

/-- What the driver presents on the input ports at one rising edge of clk (R67). The port clk itself is the edge. The
ports are raw wires: codes that name nothing can be presented (R75, R81), and unused ports hold anything (R84). -/
structure CycleInput where
  /-- synchronous reset, active high (R117) -/
  rst     : Bool
  /-- command code of this cycle (R68) -/
  cmd     : BitVec 3
  /-- port word for EXEC (R50) -/
  instr   : PortWord
  /-- register for WRITE_REG (R75) -/
  regSel  : BitVec 3
  /-- pair for SET_PAIR (R77) -/
  pairSel : BitVec 2
  /-- data for WRITE_REG, SET_PAIR and SET_FLAGS (R67) -/
  wdata   : BitVec 16
deriving DecidableEq, Repr

end Sys2Proof
end

