-- ==== Sys2Proof/WellFormed.lean ====
section
/-! DEFINITION. Which inputs a valid use of the block presents. An instruction has no ill-formed term: every family takes
every target (00_scope.md R13: "there is no invalid target"; 30_encoding.md R62), so the checks are on the input ports,
whose codes can name nothing. -/

namespace Sys2Proof

/-- The command code is one of the five of R68, not a reserved one (R81). -/
def CycleInput.commandNamed (p : CycleInput) : Bool :=
  !(p.cmd == 0b101#3 || p.cmd == 0b110#3 || p.cmd == 0b111#3)

/-- A WRITE_REG names a register: reg_sel is not 110 (R75). -/
def CycleInput.registerNamed (p : CycleInput) : Bool :=
  !(p.cmd == 0b010#3 && p.regSel == 0b110#3)

/-- The edge is a valid use of the block: a reset edge, whatever the other ports hold (R117), or a command of R68 that
names a register where it needs one. -/
def CycleInput.wf (p : CycleInput) : Bool :=
  p.rst || (p.commandNamed && p.registerNamed)

end Sys2Proof
end

