-- ==== Sys2Proof/Decode.lean ====
section
/-! DEFINITION. The decoder of port words (30_encoding.md R50 to R60), of program bytes (R51) and of the command and select
codes of the ports (40_register_file_ports.md R68, R75, R77); after it the encoder, from the same tables, and the
assembler's spelling (R63). -/

namespace Sys2Proof

/-! ## Decoding a port word -/

/-- Why a word or a run of bytes is no instruction of the block. Both word reasons are the spec's one UNIMPLEMENTED. -/
inductive DecodeReason where
  /-- the target field is 110, the memory operand the block does not have (R58): UNIMPLEMENTED -/
  | memoryOperand
  /-- outside the eleven families (R59): UNIMPLEMENTED -/
  | outsideFamilies
  /-- there is no byte to read (program bytes only, R51) -/
  | noBytes
  /-- the 0xCB byte stands alone (program bytes only, R51) -/
  | cbAlone
deriving DecidableEq, Repr

/-- The decoder's answer: a (family, target) pair, or UNIMPLEMENTED with its reason (R56). -/
inductive DecodedPair where
  | pair (f : Family) (t : Target)
  | unimplemented (why : DecodeReason)
deriving DecidableEq, Repr

/-- The decoder's answer as an instruction (R56: "There is no third case", R60). -/
inductive Decoded where
  | instr (i : Instr)
  | unimplemented (why : DecodeReason)
deriving DecidableEq, Repr

/-- `Target(r)` of R56, the r codes of R52. -/
def targetOf (r : BitVec 3) : Option Target :=
  match r.getLsbD 2, r.getLsbD 1, r.getLsbD 0 with
  | false, false, false => some .b
  | false, false, true  => some .c
  | false, true,  false => some .d
  | false, true,  true  => some .e
  | true,  false, false => some .h
  | true,  false, true  => some .l
  | true,  true,  false => none
  | true,  true,  true  => some .a

/-- The family of an ALU8 word's fff field (R53). XOR is 101 and OR is 110. -/
def aluFamilyOf (fff : BitVec 3) : Family :=
  match fff.getLsbD 2, fff.getLsbD 1, fff.getLsbD 0 with
  | false, false, false => .add
  | false, false, true  => .adc
  | false, true,  false => .sub
  | false, true,  true  => .sbc
  | true,  false, false => .and
  | true,  false, true  => .xor
  | true,  true,  false => .or
  | true,  true,  true  => .cp

/-- "t = Target(…); if t = NONE: return UNIMPLEMENTED", the tail of each branch of R56. -/
def withTarget (f : Family) (r : BitVec 3) : DecodedPair :=
  match targetOf r with
  | some t => .pair f t
  | none => .unimplemented .memoryOperand

/-- `Decode(w)` of R56, branch by branch. -/
def decodePair (w : PortWord) : DecodedPair :=
  let cb := w.getLsbD 8
  let op : Byte := w.extractLsb' 0 8
  if cb = false ∧ op.extractLsb' 6 2 = 0b10#2 then
    withTarget (aluFamilyOf (op.extractLsb' 3 3)) (op.extractLsb' 0 3)
  else if cb = false ∧ op.extractLsb' 6 2 = 0b00#2 ∧ op.extractLsb' 1 2 = 0b10#2 then
    withTarget (if op.getLsbD 0 then .dec else .inc) (op.extractLsb' 3 3)
  else if cb = true ∧ op.extractLsb' 3 5 = 0b00110#5 then
    withTarget .swap (op.extractLsb' 0 3)
  else
    .unimplemented .outsideFamilies

/-- The decoder: total on all 512 port words (R57). -/
def decode (w : PortWord) : Decoded :=
  match decodePair w with
  | .pair f t => .instr (Instr.ofPair f t)
  | .unimplemented why => .unimplemented why

/-- The word decodes to one of the 77 instructions (R57). -/
def implemented (w : PortWord) : Bool :=
  match decode w with
  | .instr _ => true
  | .unimplemented _ => false

/-! ## Decoding program bytes -/

/-- The port word of program bytes: op alone is {0, op}, 0xCB then op is {1, op} (R51). With it, the bytes left over. The
length of an instruction outside the families is not part of this block: only its first word is read. -/
def portWordOfBytes : List Byte → Option (PortWord × List Byte)
  | [] => none
  | op :: rest =>
    if op = Config.cbByte then
      match rest with
      | [] => none
      | op' :: rest' => some (0x100#9 ||| op'.setWidth 9, rest')
    else some (op.setWidth 9, rest)

/-- The answer of the byte decoder: an instruction and the bytes after it, or a reason. -/
inductive DecodedBytes where
  | instr (i : Instr) (rest : List Byte)
  | unimplemented (why : DecodeReason)
deriving DecidableEq, Repr

/-- The external decoder on in-scope instructions (R51), total on any bytes. -/
def decodeBytes (bs : List Byte) : DecodedBytes :=
  match portWordOfBytes bs with
  | some (w, rest) =>
    match decode w with
    | .instr i => .instr i rest
    | .unimplemented why => .unimplemented why
  | none => .unimplemented (if bs = [] then .noBytes else .cbAlone)

/-! ## Decoding the other port codes -/

/-- Command codes on cmd (R68); 101, 110 and 111 are reserved (R81). -/
def commandOf (cmd : BitVec 3) : Option Command :=
  match cmd.getLsbD 2, cmd.getLsbD 1, cmd.getLsbD 0 with
  | false, false, false => some .nop
  | false, false, true  => some .exec
  | false, true,  false => some .writeReg
  | false, true,  true  => some .setPair
  | true,  false, false => some .setFlags
  | true,  false, true  => none
  | true,  true,  false => none
  | true,  true,  true  => none

/-- Pair select codes on pair_sel (R77). -/
def pairOf (sel : BitVec 2) : Pair :=
  match sel.getLsbD 1, sel.getLsbD 0 with
  | false, false => .bc
  | false, true  => .de
  | true,  false => .hl
  | true,  true  => .af

/-! ## Words numbered as the opcode table numbers them -/

/-- The port word of an opcode-table word: bit 8 is cb, bits 7 to 0 are op (R50). The port has nine wires, so bits above
bit 8 do not reach it. DESIGN CHOICE, log entry 4. -/
def portWordOfTable (nbits w : Nat) : PortWord :=
  BitVec.ofNat 9 (w % 2 ^ nbits)

/-- The instruction the decoder reads from an opcode-table word. -/
def decodeTableWord (nbits w : Nat) : Option Instr :=
  match decode (portWordOfTable nbits w) with
  | .instr i => some i
  | .unimplemented _ => none

/-! ## Encoding -/

/-- The r code of a target (R52). -/
def codeOf : Target → BitVec 3
  | .b => 0b000#3
  | .c => 0b001#3
  | .d => 0b010#3
  | .e => 0b011#3
  | .h => 0b100#3
  | .l => 0b101#3
  | .a => 0b111#3

/-- The pair_sel code of a pair (R77). -/
def pairCodeOf : Pair → BitVec 2
  | .bc => 0b00#2
  | .de => 0b01#2
  | .hl => 0b10#2
  | .af => 0b11#2

/-- The cmd code of a command (R68). -/
def commandCodeOf : Command → BitVec 3
  | .nop      => 0b000#3
  | .exec     => 0b001#3
  | .writeReg => 0b010#3
  | .setPair  => 0b011#3
  | .setFlags => 0b100#3

/-- Format ALU8, cb = 0: `1 0 f f f r r r` (R53). -/
def encodeAlu8 (fff : BitVec 3) (t : Target) : PortWord :=
  0#1 ++ 0b10#2 ++ fff ++ codeOf t

/-- Format INCDEC, cb = 0: `0 0 r r r 1 0 d` (R54). -/
def encodeIncDec (d : BitVec 1) (t : Target) : PortWord :=
  0#1 ++ 0b00#2 ++ codeOf t ++ 0b10#2 ++ d

/-- Format CB, cb = 1: `0 0 1 1 0 r r r` (R55). -/
def encodeCb (t : Target) : PortWord :=
  1#1 ++ 0b00110#5 ++ codeOf t

/-- The port word of a (family, target) pair (R53, R54, R55, R65). -/
def encodePair (f : Family) (t : Target) : PortWord :=
  match f with
  | .add  => encodeAlu8 0b000#3 t
  | .adc  => encodeAlu8 0b001#3 t
  | .sub  => encodeAlu8 0b010#3 t
  | .sbc  => encodeAlu8 0b011#3 t
  | .and  => encodeAlu8 0b100#3 t
  | .xor  => encodeAlu8 0b101#3 t
  | .or   => encodeAlu8 0b110#3 t
  | .cp   => encodeAlu8 0b111#3 t
  | .inc  => encodeIncDec 0#1 t
  | .dec  => encodeIncDec 1#1 t
  | .swap => encodeCb t

/-- The port word of an instruction. -/
def encode (i : Instr) : PortWord :=
  encodePair i.family i.target

/-- The program bytes of a port word (R51, R65: "a word 0x13Z is the two bytes 0xCB 0x3Z"). -/
def bytesOfPortWord (w : PortWord) : List Byte :=
  if w.getLsbD 8 then [Config.cbByte, w.extractLsb' 0 8] else [w.extractLsb' 0 8]

/-- The program bytes of an instruction (R51). -/
def programBytes (i : Instr) : List Byte :=
  bytesOfPortWord (encode i)

/-! ## Assembler spelling -/

/-- A register operand is written by its name (R63). -/
def Target.name : Target → String
  | .a => "A"
  | .b => "B"
  | .c => "C"
  | .d => "D"
  | .e => "E"
  | .h => "H"
  | .l => "L"

/-- The mnemonic of a family, upper case (R63). -/
def Family.mnemonic : Family → String
  | .add  => "ADD"
  | .adc  => "ADC"
  | .sub  => "SUB"
  | .sbc  => "SBC"
  | .and  => "AND"
  | .or   => "OR"
  | .xor  => "XOR"
  | .cp   => "CP"
  | .inc  => "INC"
  | .dec  => "DEC"
  | .swap => "SWAP"

/-- The spellings an assembler accepts, the instruction's own first (R63): ADD, ADC and SBC name the accumulator; SUB,
AND, XOR, OR and CP may; INC, DEC and SWAP do not. -/
def Instr.spellings (i : Instr) : List String :=
  let short := i.family.mnemonic ++ " " ++ i.target.name
  let long := i.family.mnemonic ++ " A," ++ i.target.name
  match i.family with
  | .add | .adc | .sbc => [long]
  | .sub | .and | .xor | .or | .cp => [short, long]
  | .inc | .dec | .swap => [short]

/-- The instruction an assembler reads from one line (R63), if any. -/
def assemble (line : String) : Option Instr :=
  Instr.all.find? fun i => i.spellings.contains line

end Sys2Proof
end

