-- ==== Sys2Proof/Machine/State.lean ====
section
/-! DEFINITION. The state of the block (10_state.md R33), the reasons a step can stop, and the state after reset (R34). -/

namespace Sys2Proof.Machine

/-- `FlagBits`: the flag register is stored as four Booleans (R18). -/
structure Flags where
  /-- zero -/
  z : Bool
  /-- subtract -/
  n : Bool
  /-- half_carry -/
  h : Bool
  /-- carry -/
  c : Bool
deriving DecidableEq, Repr

/-- The complete state of the block (R33), and `inputs`, the model's own field. The block has no program counter (R31), no
memory (R38) and no other register (R29, R30). -/
structure State where
  /-- register A, the accumulator (R15, R17) -/
  a : Byte
  /-- register B (R15) -/
  b : Byte
  /-- register C (R15) -/
  c : Byte
  /-- register D (R15) -/
  d : Byte
  /-- register E (R15) -/
  e : Byte
  /-- register H (R15) -/
  h : Byte
  /-- register L (R15) -/
  l : Byte
  /-- flag register F (R18) -/
  f : Flags
  /-- the fault latch (R32) -/
  faulted : Bool
  /-- the cause code (R32, R103) -/
  faultCause : BitVec 2
  /-- the port word that faulted (R32) -/
  faultInstr : PortWord
  /-- the MODEL's own field: what the driver presents at the coming rising edges, first edge first (R48, R69). DESIGN
  CHOICE, log entry 1. -/
  inputs : List CycleInput
deriving DecidableEq, Repr

/-- Reasons to stop with a fault: none. The block's one exception, the unimplemented-opcode fault, has an entry the spec
describes and is a next state (R99, R102). -/
inductive Fault where
deriving DecidableEq, Repr

/-- Reasons a step has no meaning. Each is safe: the model stops where the spec gives no state. -/
inductive Refusal where
  /-- Raised by an arm of `exec` whose instruction has no meaning yet; safe. No arm is left so. -/
  | notModelled (mnemonic : String)
  /-- Raised by an edge that presents command code 101, 110 or 111 with rst = 0 and faulted = 0 (R81); safe. -/
  | reservedCommand (cmd : BitVec 3)
  /-- Raised by a WRITE_REG with reg_sel = 110, which names no register (R75); safe. -/
  | writeRegNoRegister
deriving DecidableEq, Repr

/-- All four flags at their reset value (R34). -/
def Flags.reset : Flags where
  z := Config.resetFlag
  n := Config.resetFlag
  h := Config.resetFlag
  c := Config.resetFlag

/-- The block right after a reset edge (R34, R117), the driver presenting nothing more (log entry 1). -/
def State.reset : State where
  a := Config.resetRegister
  b := Config.resetRegister
  c := Config.resetRegister
  d := Config.resetRegister
  e := Config.resetRegister
  h := Config.resetRegister
  l := Config.resetRegister
  f := Flags.reset
  faulted := false
  faultCause := Config.causeNone
  faultInstr := Config.noFaultInstr
  inputs := []

end Sys2Proof.Machine
end

