-- ==== Sys2Proof/Machine/Ops.lean ====
section
/-! DEFINITION. The named operations on the register file, the commit of an instruction, the fault entry and the reset. -/

namespace Sys2Proof.Machine

/-! ## General registers -/

/-- `x[t]`: the value of a general register, a total function (R13, R37). -/
def State.readReg (s : State) : Target → Byte
  | .a => s.a
  | .b => s.b
  | .c => s.c
  | .d => s.d
  | .e => s.e
  | .h => s.h
  | .l => s.l

/-- `x[t] <- v`: one register is overwritten, the others are not aliased to it (R13, R15). -/
def State.writeReg (s : State) (t : Target) (v : Byte) : State :=
  match t with
  | .a => { s with a := v }
  | .b => { s with b := v }
  | .c => { s with c := v }
  | .d => { s with d := v }
  | .e => { s with e := v }
  | .h => { s with h := v }
  | .l => { s with l := v }

/-! ## The flag byte -/

/-- Pack(F) (R20): z, n, h, c in bits 7 to 4, bits 3 to 0 zero (R19, decision D1). -/
def Flags.pack (f : Flags) : Byte :=
  BitVec.ofBool f.z ++ BitVec.ofBool f.n ++ BitVec.ofBool f.h ++ BitVec.ofBool f.c ++ 0b0000#4

/-- Unpack(b) (R21): bits 7 to 4; the low nibble is ignored (decision D2). -/
def Flags.unpack (b : Byte) : Flags where
  z := b.getLsbD 7
  n := b.getLsbD 6
  h := b.getLsbD 5
  c := b.getLsbD 4

/-- `F <- fl`: all four flags at once. -/
def State.writeFlags (s : State) (fl : Flags) : State :=
  { s with f := fl }

/-! ## Pairs -/

/-- fold (R26): `(zext_16(hi) << 8) | zext_16(lo)`, high byte first. -/
def fold (hi lo : Byte) : Word := (hi.setWidth 16 <<< 8) ||| lo.setWidth 16

/-- The high byte of unfold (R26). -/
def unfoldHi (v : Word) : Byte := v.extractLsb' 8 8

/-- The low byte of unfold (R26). -/
def unfoldLo (v : Word) : Byte := v.extractLsb' 0 8

/-- get_pair (R26). -/
def State.getPair (s : State) : Pair → Word
  | .af => fold (s.readReg .a) s.f.pack
  | .bc => fold (s.readReg .b) (s.readReg .c)
  | .de => fold (s.readReg .d) (s.readReg .e)
  | .hl => fold (s.readReg .h) (s.readReg .l)

/-- set_pair (R27): both bytes in one step; the AF pair's low byte goes to F through Unpack. -/
def State.setPair (s : State) (p : Pair) (v : Word) : State :=
  match p with
  | .af => (s.writeReg .a (unfoldHi v)).writeFlags (Flags.unpack (unfoldLo v))
  | .bc => (s.writeReg .b (unfoldHi v)).writeReg .c (unfoldLo v)
  | .de => (s.writeReg .d (unfoldHi v)).writeReg .e (unfoldLo v)
  | .hl => (s.writeReg .h (unfoldHi v)).writeReg .l (unfoldLo v)

/-! ## Commit -/

/-- What Execute returns (R73): the register to write, if any, the value for it, and the new flags. -/
structure Result where
  dest  : Option Target
  value : Byte
  flags : Flags
deriving DecidableEq, Repr

/-- The commit of R72: "F <- Fnew, and x[dest] <- v if dest ≠ NONE", both at the same edge. -/
def State.commit (s : State) (r : Result) : State :=
  match r.dest with
  | some t => (s.writeReg t r.value).writeFlags r.flags
  | none => s.writeFlags r.flags

/-! ## Taking the exception, and reset -/

/-- `raise UnimplementedOpcode(w)` (R99): the latch is set, the cause and the word are recorded, and the register file is
unchanged. There is no vector, no saved pc and no mode (R106). -/
def State.raiseUnimplemented (s : State) (w : PortWord) : State :=
  { s with faulted := true, faultCause := Config.causeUnimplementedOpcode, faultInstr := w }

/-- A reset edge (R117): every field of the block takes its reset value. It is the only way out of the fault, and restores
nothing (R107, R118). What the driver presents at later edges is not part of the block. -/
def State.applyReset (s : State) : State :=
  { State.reset with inputs := s.inputs }

end Sys2Proof.Machine
end

