-- ==== Sys2Proof/Machine/Operands.lean ====
section
/-! DEFINITION. Operands as exact numbers, the narrowing of an exact result, and the three destination forms of
40_register_file_ports.md R73. -/

namespace Sys2Proof.Machine

/-- `a`, "A_old": the accumulator before the instruction (R11, R17). -/
def State.accumulator (s : State) : Nat := (s.readReg .a).toNat

/-- `v`, "value": the target register before the instruction (R11, R62). -/
def State.operand (s : State) (t : Target) : Nat := (s.readReg t).toNat

/-- `ci`, "carry_in": F.c before the instruction, as 0 or 1 (R11). -/
def State.carryIn (s : State) : Nat := s.f.c.toNat

/-- An exact result, wrapped modulo 2^8 (R10). -/
def narrow (x : Int) : Byte := BitVec.ofInt 8 x

/-- dest = A (ADD, ADC, SUB, SBC, AND, OR, XOR; R73). -/
def toAccumulator (value : Byte) (flags : Flags) : Result where
  dest := some .a
  value := value
  flags := flags

/-- dest = t (INC, DEC, SWAP; R73). -/
def toTarget (t : Target) (value : Byte) (flags : Flags) : Result where
  dest := some t
  value := value
  flags := flags

/-- dest = NONE (CP; R73): the value is "computed, not written" (R90). -/
def flagsOnly (value : Byte) (flags : Flags) : Result where
  dest := none
  value := value
  flags := flags

end Sys2Proof.Machine
end

