-- ==== Sys2Proof/Machine/Flags.lean ====
section
/-! DEFINITION. Every flag computation of the spec. Half-carry and carry come from the operands before the instruction, as
exact numbers, never from the result (41_arithmetic.md R85). -/

namespace Sys2Proof.Machine

/-- `x & 0xF`. -/
def lowNibble (x : Nat) : Nat := x &&& 0xF

/-- `((a & 0xF) + (v & 0xF)) > 0xF` (R86, R87): carry_in is left out, for ADC too. -/
def halfCarryAdd (a v : Nat) : Bool := decide (lowNibble a + lowNibble v > 0xF)

/-- `((a & 0xF) - (v & 0xF)) < 0`, a compare of unbounded integers (R88, R89, R90). -/
def halfCarrySub (a v : Nat) : Bool := decide ((lowNibble a : Int) - lowNibble v < 0)

/-- ADD (R86). -/
def Flags.ofAdd (a v : Nat) : Flags where
  z := narrow (a + v) == 0
  n := false
  h := halfCarryAdd a v
  c := decide (a + v > 0xFF)

/-- ADC (R87). -/
def Flags.ofAdc (a v ci : Nat) : Flags where
  z := narrow (a + v + ci) == 0
  n := false
  h := halfCarryAdd a v
  c := decide (a + v + ci > 0xFF)

/-- SUB and CP (R88, R90). -/
def Flags.ofSub (a v : Nat) : Flags where
  z := narrow ((a : Int) - v) == 0
  n := true
  h := halfCarrySub a v
  c := decide (a < v)

/-- SBC (R89): the half-carry uses `value`, the carry uses `tmp`. -/
def Flags.ofSbc (a v tmp : Nat) : Flags where
  z := narrow ((a : Int) - tmp) == 0
  n := true
  h := halfCarrySub a v
  c := decide (a < tmp)

/-- AND, OR, XOR (R91, R92, R93): h is 1 for AND and 0 for the others, c is 0. -/
def Flags.ofLogic (res : Byte) (h : Bool) : Flags where
  z := res == 0
  n := false
  h := h
  c := false

/-- INC (R94, R96): h from the accumulator `a`, c as it was. -/
def Flags.ofInc (a : Nat) (res : Byte) (c : Bool) : Flags where
  z := res == 0
  n := false
  h := decide (lowNibble a + 1 > 0xF)
  c := c

/-- DEC (R95, R96): h from the accumulator `a`, c as it was. -/
def Flags.ofDec (a : Nat) (res : Byte) (c : Bool) : Flags where
  z := res == 0
  n := true
  h := decide ((lowNibble a : Int) - 1 < 0)
  c := c

/-- SWAP (R97): all four 0, "even when result is 0". -/
def Flags.ofSwap : Flags where
  z := false
  n := false
  h := false
  c := false

end Sys2Proof.Machine
end

