-- ==== Sys2Proof/Machine/Arithmetic.lean ====
section
/-! DEFINITION. Meanings of the arithmetic family: ADD, ADC, SUB, SBC, CP (41_arithmetic.md R85 to R90).
Each `alu…` is the pure computation of 40_register_file_ports.md R73, each `exec…` is one instruction: compute, then commit at the edge (R8, R72). -/

namespace Sys2Proof.Machine

/-- ADD (R86): `sum = a + v`, written to A modulo 256. -/
def aluAdd (t : Target) (s : State) : Result :=
  toAccumulator (narrow (s.accumulator + s.operand t)) (Flags.ofAdd s.accumulator (s.operand t))

/-- ADD A,B (R86). -/
def execAddAB (s : State) : Host.Outcome State Fault Refusal :=
  .next (s.commit (aluAdd .b s))

/-- ADD A,C (R86). -/
def execAddAC (s : State) : Host.Outcome State Fault Refusal :=
  .next (s.commit (aluAdd .c s))

/-- ADD A,D (R86). -/
def execAddAD (s : State) : Host.Outcome State Fault Refusal :=
  .next (s.commit (aluAdd .d s))

/-- ADD A,E (R86). -/
def execAddAE (s : State) : Host.Outcome State Fault Refusal :=
  .next (s.commit (aluAdd .e s))

/-- ADD A,H (R86). -/
def execAddAH (s : State) : Host.Outcome State Fault Refusal :=
  .next (s.commit (aluAdd .h s))

/-- ADD A,L (R86). -/
def execAddAL (s : State) : Host.Outcome State Fault Refusal :=
  .next (s.commit (aluAdd .l s))

/-- ADD A,A (R86). -/
def execAddAA (s : State) : Host.Outcome State Fault Refusal :=
  .next (s.commit (aluAdd .a s))

/-- ADC (R87): `sum = a + v + ci`, truncated to 8 bits. -/
def aluAdc (t : Target) (s : State) : Result :=
  toAccumulator (narrow (s.accumulator + s.operand t + s.carryIn))
    (Flags.ofAdc s.accumulator (s.operand t) s.carryIn)

/-- ADC A,B (R87). -/
def execAdcAB (s : State) : Host.Outcome State Fault Refusal :=
  .next (s.commit (aluAdc .b s))

/-- ADC A,C (R87). -/
def execAdcAC (s : State) : Host.Outcome State Fault Refusal :=
  .next (s.commit (aluAdc .c s))

/-- ADC A,D (R87). -/
def execAdcAD (s : State) : Host.Outcome State Fault Refusal :=
  .next (s.commit (aluAdc .d s))

/-- ADC A,E (R87). -/
def execAdcAE (s : State) : Host.Outcome State Fault Refusal :=
  .next (s.commit (aluAdc .e s))

/-- ADC A,H (R87). -/
def execAdcAH (s : State) : Host.Outcome State Fault Refusal :=
  .next (s.commit (aluAdc .h s))

/-- ADC A,L (R87). -/
def execAdcAL (s : State) : Host.Outcome State Fault Refusal :=
  .next (s.commit (aluAdc .l s))

/-- ADC A,A (R87). -/
def execAdcAA (s : State) : Host.Outcome State Fault Refusal :=
  .next (s.commit (aluAdc .a s))

/-- SUB (R88): `res = (a - v) mod 256`. -/
def aluSub (t : Target) (s : State) : Result :=
  toAccumulator (narrow ((s.accumulator : Int) - s.operand t)) (Flags.ofSub s.accumulator (s.operand t))

/-- SUB B (R88). -/
def execSubB (s : State) : Host.Outcome State Fault Refusal :=
  .next (s.commit (aluSub .b s))

/-- SUB C (R88). -/
def execSubC (s : State) : Host.Outcome State Fault Refusal :=
  .next (s.commit (aluSub .c s))

/-- SUB D (R88). -/
def execSubD (s : State) : Host.Outcome State Fault Refusal :=
  .next (s.commit (aluSub .d s))

/-- SUB E (R88). -/
def execSubE (s : State) : Host.Outcome State Fault Refusal :=
  .next (s.commit (aluSub .e s))

/-- SUB H (R88). -/
def execSubH (s : State) : Host.Outcome State Fault Refusal :=
  .next (s.commit (aluSub .h s))

/-- SUB L (R88). -/
def execSubL (s : State) : Host.Outcome State Fault Refusal :=
  .next (s.commit (aluSub .l s))

/-- SUB A (R88). -/
def execSubA (s : State) : Host.Outcome State Fault Refusal :=
  .next (s.commit (aluSub .a s))

/-- SBC (R89): `tmp = (v - ci) mod 256`, then `res = (a - tmp) mod 256`: the source's literal operand order, so the
result is `a - v + ci`. The inner subtraction wraps (decision D3). -/
def aluSbc (t : Target) (s : State) : Result :=
  let tmp := (narrow ((s.operand t : Int) - s.carryIn)).toNat
  toAccumulator (narrow ((s.accumulator : Int) - tmp)) (Flags.ofSbc s.accumulator (s.operand t) tmp)

/-- SBC A,B (R89). -/
def execSbcAB (s : State) : Host.Outcome State Fault Refusal :=
  .next (s.commit (aluSbc .b s))

/-- SBC A,C (R89). -/
def execSbcAC (s : State) : Host.Outcome State Fault Refusal :=
  .next (s.commit (aluSbc .c s))

/-- SBC A,D (R89). -/
def execSbcAD (s : State) : Host.Outcome State Fault Refusal :=
  .next (s.commit (aluSbc .d s))

/-- SBC A,E (R89). -/
def execSbcAE (s : State) : Host.Outcome State Fault Refusal :=
  .next (s.commit (aluSbc .e s))

/-- SBC A,H (R89). -/
def execSbcAH (s : State) : Host.Outcome State Fault Refusal :=
  .next (s.commit (aluSbc .h s))

/-- SBC A,L (R89). -/
def execSbcAL (s : State) : Host.Outcome State Fault Refusal :=
  .next (s.commit (aluSbc .l s))

/-- SBC A,A (R89). -/
def execSbcAA (s : State) : Host.Outcome State Fault Refusal :=
  .next (s.commit (aluSbc .a s))

/-- CP (R90): SUB's flags, no register written. -/
def aluCp (t : Target) (s : State) : Result :=
  flagsOnly (narrow ((s.accumulator : Int) - s.operand t)) (Flags.ofSub s.accumulator (s.operand t))

/-- CP B (R90). -/
def execCpB (s : State) : Host.Outcome State Fault Refusal :=
  .next (s.commit (aluCp .b s))

/-- CP C (R90). -/
def execCpC (s : State) : Host.Outcome State Fault Refusal :=
  .next (s.commit (aluCp .c s))

/-- CP D (R90). -/
def execCpD (s : State) : Host.Outcome State Fault Refusal :=
  .next (s.commit (aluCp .d s))

/-- CP E (R90). -/
def execCpE (s : State) : Host.Outcome State Fault Refusal :=
  .next (s.commit (aluCp .e s))

/-- CP H (R90). -/
def execCpH (s : State) : Host.Outcome State Fault Refusal :=
  .next (s.commit (aluCp .h s))

/-- CP L (R90). -/
def execCpL (s : State) : Host.Outcome State Fault Refusal :=
  .next (s.commit (aluCp .l s))

/-- CP A (R90). -/
def execCpA (s : State) : Host.Outcome State Fault Refusal :=
  .next (s.commit (aluCp .a s))

end Sys2Proof.Machine
end

