-- ==== Sys2Proof/Machine/IncDec.lean ====
section
/-! DEFINITION. Meanings of the increment and decrement family: INC, DEC (43_inc_dec.md R94 to R96).
Each `alu…` is the pure computation of 40_register_file_ports.md R73, each `exec…` is one instruction: compute, then commit at the edge (R8, R72). -/

namespace Sys2Proof.Machine

/-- INC (R94): the target plus one; the half-carry is A's, whatever the target (R96); F.c is kept (R23). -/
def aluInc (t : Target) (s : State) : Result :=
  let res := narrow (s.operand t + 1)
  toTarget t res (Flags.ofInc s.accumulator res s.f.c)

/-- INC B (R94). -/
def execIncB (s : State) : Host.Outcome State Fault Refusal :=
  .next (s.commit (aluInc .b s))

/-- INC C (R94). -/
def execIncC (s : State) : Host.Outcome State Fault Refusal :=
  .next (s.commit (aluInc .c s))

/-- INC D (R94). -/
def execIncD (s : State) : Host.Outcome State Fault Refusal :=
  .next (s.commit (aluInc .d s))

/-- INC E (R94). -/
def execIncE (s : State) : Host.Outcome State Fault Refusal :=
  .next (s.commit (aluInc .e s))

/-- INC H (R94). -/
def execIncH (s : State) : Host.Outcome State Fault Refusal :=
  .next (s.commit (aluInc .h s))

/-- INC L (R94). -/
def execIncL (s : State) : Host.Outcome State Fault Refusal :=
  .next (s.commit (aluInc .l s))

/-- INC A (R94). -/
def execIncA (s : State) : Host.Outcome State Fault Refusal :=
  .next (s.commit (aluInc .a s))

/-- DEC (R95): the target minus one; the half-carry is A's, whatever the target (R96); F.c is kept (R23). -/
def aluDec (t : Target) (s : State) : Result :=
  let res := narrow ((s.operand t : Int) - 1)
  toTarget t res (Flags.ofDec s.accumulator res s.f.c)

/-- DEC B (R95). -/
def execDecB (s : State) : Host.Outcome State Fault Refusal :=
  .next (s.commit (aluDec .b s))

/-- DEC C (R95). -/
def execDecC (s : State) : Host.Outcome State Fault Refusal :=
  .next (s.commit (aluDec .c s))

/-- DEC D (R95). -/
def execDecD (s : State) : Host.Outcome State Fault Refusal :=
  .next (s.commit (aluDec .d s))

/-- DEC E (R95). -/
def execDecE (s : State) : Host.Outcome State Fault Refusal :=
  .next (s.commit (aluDec .e s))

/-- DEC H (R95). -/
def execDecH (s : State) : Host.Outcome State Fault Refusal :=
  .next (s.commit (aluDec .h s))

/-- DEC L (R95). -/
def execDecL (s : State) : Host.Outcome State Fault Refusal :=
  .next (s.commit (aluDec .l s))

/-- DEC A (R95). -/
def execDecA (s : State) : Host.Outcome State Fault Refusal :=
  .next (s.commit (aluDec .a s))

end Sys2Proof.Machine
end

