-- ==== Sys2Proof/Machine/Logic.lean ====
section
/-! DEFINITION. Meanings of the logic family: AND, OR, XOR (42_logic.md R91 to R93).
Each `alu…` is the pure computation of 40_register_file_ports.md R73, each `exec…` is one instruction: compute, then commit at the edge (R8, R72). -/

namespace Sys2Proof.Machine

/-- AND (R91). -/
def aluAnd (t : Target) (s : State) : Result :=
  let res := s.readReg .a &&& s.readReg t
  toAccumulator res (Flags.ofLogic res true)

/-- AND B (R91). -/
def execAndB (s : State) : Host.Outcome State Fault Refusal :=
  .next (s.commit (aluAnd .b s))

/-- AND C (R91). -/
def execAndC (s : State) : Host.Outcome State Fault Refusal :=
  .next (s.commit (aluAnd .c s))

/-- AND D (R91). -/
def execAndD (s : State) : Host.Outcome State Fault Refusal :=
  .next (s.commit (aluAnd .d s))

/-- AND E (R91). -/
def execAndE (s : State) : Host.Outcome State Fault Refusal :=
  .next (s.commit (aluAnd .e s))

/-- AND H (R91). -/
def execAndH (s : State) : Host.Outcome State Fault Refusal :=
  .next (s.commit (aluAnd .h s))

/-- AND L (R91). -/
def execAndL (s : State) : Host.Outcome State Fault Refusal :=
  .next (s.commit (aluAnd .l s))

/-- AND A (R91). -/
def execAndA (s : State) : Host.Outcome State Fault Refusal :=
  .next (s.commit (aluAnd .a s))

/-- OR (R92). -/
def aluOr (t : Target) (s : State) : Result :=
  let res := s.readReg .a ||| s.readReg t
  toAccumulator res (Flags.ofLogic res false)

/-- OR B (R92). -/
def execOrB (s : State) : Host.Outcome State Fault Refusal :=
  .next (s.commit (aluOr .b s))

/-- OR C (R92). -/
def execOrC (s : State) : Host.Outcome State Fault Refusal :=
  .next (s.commit (aluOr .c s))

/-- OR D (R92). -/
def execOrD (s : State) : Host.Outcome State Fault Refusal :=
  .next (s.commit (aluOr .d s))

/-- OR E (R92). -/
def execOrE (s : State) : Host.Outcome State Fault Refusal :=
  .next (s.commit (aluOr .e s))

/-- OR H (R92). -/
def execOrH (s : State) : Host.Outcome State Fault Refusal :=
  .next (s.commit (aluOr .h s))

/-- OR L (R92). -/
def execOrL (s : State) : Host.Outcome State Fault Refusal :=
  .next (s.commit (aluOr .l s))

/-- OR A (R92). -/
def execOrA (s : State) : Host.Outcome State Fault Refusal :=
  .next (s.commit (aluOr .a s))

/-- XOR (R93). -/
def aluXor (t : Target) (s : State) : Result :=
  let res := s.readReg .a ^^^ s.readReg t
  toAccumulator res (Flags.ofLogic res false)

/-- XOR B (R93). -/
def execXorB (s : State) : Host.Outcome State Fault Refusal :=
  .next (s.commit (aluXor .b s))

/-- XOR C (R93). -/
def execXorC (s : State) : Host.Outcome State Fault Refusal :=
  .next (s.commit (aluXor .c s))

/-- XOR D (R93). -/
def execXorD (s : State) : Host.Outcome State Fault Refusal :=
  .next (s.commit (aluXor .d s))

/-- XOR E (R93). -/
def execXorE (s : State) : Host.Outcome State Fault Refusal :=
  .next (s.commit (aluXor .e s))

/-- XOR H (R93). -/
def execXorH (s : State) : Host.Outcome State Fault Refusal :=
  .next (s.commit (aluXor .h s))

/-- XOR L (R93). -/
def execXorL (s : State) : Host.Outcome State Fault Refusal :=
  .next (s.commit (aluXor .l s))

/-- XOR A (R93). -/
def execXorA (s : State) : Host.Outcome State Fault Refusal :=
  .next (s.commit (aluXor .a s))

end Sys2Proof.Machine
end

