-- ==== Sys2Proof/Machine/Swap.lean ====
section
/-! DEFINITION. Meanings of the nibble swap: SWAP (44_swap.md R97).
Each `alu…` is the pure computation of 40_register_file_ports.md R73, each `exec…` is one instruction: compute, then commit at the edge (R8, R72). -/

namespace Sys2Proof.Machine

/-- SWAP (R97): `((v & 0x0F) << 4) | ((v & 0xF0) >> 4)`; all four flags are written 0, the zero flag too. -/
def aluSwap (t : Target) (s : State) : Result :=
  let v := s.readReg t
  toTarget t (((v &&& 0x0F#8) <<< 4) ||| ((v &&& 0xF0#8) >>> 4)) Flags.ofSwap

/-- SWAP B (R97). -/
def execSwapB (s : State) : Host.Outcome State Fault Refusal :=
  .next (s.commit (aluSwap .b s))

/-- SWAP C (R97). -/
def execSwapC (s : State) : Host.Outcome State Fault Refusal :=
  .next (s.commit (aluSwap .c s))

/-- SWAP D (R97). -/
def execSwapD (s : State) : Host.Outcome State Fault Refusal :=
  .next (s.commit (aluSwap .d s))

/-- SWAP E (R97). -/
def execSwapE (s : State) : Host.Outcome State Fault Refusal :=
  .next (s.commit (aluSwap .e s))

/-- SWAP H (R97). -/
def execSwapH (s : State) : Host.Outcome State Fault Refusal :=
  .next (s.commit (aluSwap .h s))

/-- SWAP L (R97). -/
def execSwapL (s : State) : Host.Outcome State Fault Refusal :=
  .next (s.commit (aluSwap .l s))

/-- SWAP A (R97). -/
def execSwapA (s : State) : Host.Outcome State Fault Refusal :=
  .next (s.commit (aluSwap .a s))

end Sys2Proof.Machine
end

