-- ==== Sys2Proof/Machine/HostCommands.lean ====
section
/-! DEFINITION. The host commands of 40_register_file_ports.md section 3 other than EXEC, one definition each. -/

namespace Sys2Proof.Machine

/-- NOP changes nothing (R71). -/
def hostNop (s : State) : Host.Outcome State Fault Refusal :=
  .next s

/-- WRITE_REG (R74): wdata[7:0] to the selected register; reg_sel 110 is refused (R75). -/
def hostWriteReg (regSel : BitVec 3) (wdata : BitVec 16) (s : State) : Host.Outcome State Fault Refusal :=
  match targetOf regSel with
  | some t => .next (s.writeReg t (wdata.extractLsb' 0 8))
  | none => .refused .writeRegNoRegister

/-- SET_PAIR (R76). -/
def hostSetPair (pairSel : BitVec 2) (wdata : BitVec 16) (s : State) : Host.Outcome State Fault Refusal :=
  .next (s.setPair (pairOf pairSel) wdata)

/-- SET_FLAGS (R78): F from wdata[7:0] through Unpack. -/
def hostSetFlags (wdata : BitVec 16) (s : State) : Host.Outcome State Fault Refusal :=
  .next (s.writeFlags (Flags.unpack (wdata.extractLsb' 0 8)))

end Sys2Proof.Machine
end

