-- ==== Sys2Proof/Machine/Edge.lean ====
section
/-! DEFINITION. One rising edge of clk (40_register_file_ports.md R70): Step(S, rst, cmd, instr, reg_sel, pair_sel, wdata). -/

namespace Sys2Proof.Machine

/-- Exec(S, w) (R72): decode the port word and run the instruction, or take the unimplemented-opcode fault (R98, R99). -/
def execWord (w : PortWord) (s : State) : Host.Outcome State Fault Refusal :=
  match decode w with
  | .instr i => exec i s
  | .unimplemented _ => .next (s.raiseUnimplemented w)

/-- The command of a cycle with rst = 0 and faulted = 0 (R70); reserved codes are refused (R81). -/
def runCommand (p : CycleInput) (s : State) : Host.Outcome State Fault Refusal :=
  match commandOf p.cmd with
  | some .nop => hostNop s
  | some .exec => execWord p.instr s
  | some .writeReg => hostWriteReg p.regSel p.wdata s
  | some .setPair => hostSetPair p.pairSel p.wdata s
  | some .setFlags => hostSetFlags p.wdata s
  | none => .refused (.reservedCommand p.cmd)

/-- One edge (R70): reset first (R105, R117), then the sticky fault (R100), then the command. -/
def edge (p : CycleInput) (s : State) : Host.Outcome State Fault Refusal :=
  if p.rst then .next s.applyReset
  else if s.faulted then .next s
  else runCommand p s

/-- An edge at which the driver presents no call: cmd = 000, rst = 0 (R71). -/
def idleInput : CycleInput where
  rst := false
  cmd := commandCodeOf .nop
  instr := 0
  regSel := 0
  pairSel := 0
  wdata := 0

/-- An edge at which the driver presents EXEC of a port word (R50, R68). -/
def execInput (w : PortWord) : CycleInput :=
  { idleInput with cmd := commandCodeOf .exec, instr := w }

/-- What the driver presents at the next edge: the first pending input, or no call when none is pending. DESIGN CHOICE, log
entry 2. -/
def State.nextInput (s : State) : CycleInput :=
  s.inputs.headD idleInput

/-- The state once the next edge has sampled its input. -/
def State.dropInput (s : State) : State :=
  { s with inputs := s.inputs.tail }

/-- The driver presents an input before everything it had pending. -/
def State.present (s : State) (p : CycleInput) : State :=
  { s with inputs := p :: s.inputs }

end Sys2Proof.Machine
end

