-- ==== Sys2Proof/Machine/Execute.lean ====
section
/-! DEFINITION. Execute of 40_register_file_ports.md R73 as one total mapping from the decoded pair (family, target), the
interface of 30_encoding.md R66. Every arm of `exec` is the commit of it (Laws/Exec.lean, `exec_eq_commit`). -/

namespace Sys2Proof.Machine

/-- Execute(family, t, S) (R73). -/
def execute (f : Family) (t : Target) (s : State) : Result :=
  match f with
  | .add  => aluAdd t s
  | .adc  => aluAdc t s
  | .sub  => aluSub t s
  | .sbc  => aluSbc t s
  | .cp   => aluCp t s
  | .and  => aluAnd t s
  | .or   => aluOr t s
  | .xor  => aluXor t s
  | .inc  => aluInc t s
  | .dec  => aluDec t s
  | .swap => aluSwap t s

/-- The destination column of R73's table: A, the target, or NONE for CP. -/
def destOf (f : Family) (t : Target) : Option Target :=
  match f with
  | .add | .adc | .sub | .sbc | .and | .or | .xor => some .a
  | .cp => none
  | .inc | .dec | .swap => some t

end Sys2Proof.Machine
end

