-- ==== Sys2Proof/Machine/Outputs.lean ====
section
/-! DEFINITION. The output ports (40_register_file_ports.md R67, R79): the block's reads, functions of the state alone. -/

namespace Sys2Proof.Machine

/-- The output ports of R67. -/
structure Outputs where
  a : Byte
  b : Byte
  c : Byte
  d : Byte
  e : Byte
  h : Byte
  l : Byte
  f : Byte
  af : Word
  bc : Word
  de : Word
  hl : Word
  flagZ : Bool
  flagN : Bool
  flagH : Bool
  flagC : Bool
  faulted : Bool
  faultCause : BitVec 2
  faultInstr : PortWord
deriving DecidableEq, Repr

/-- What the output ports show in a state (R79); the source's `read`, `get_pair` and `flags` (R80). -/
def State.outputs (s : State) : Outputs where
  a := s.readReg .a
  b := s.readReg .b
  c := s.readReg .c
  d := s.readReg .d
  e := s.readReg .e
  h := s.readReg .h
  l := s.readReg .l
  f := s.f.pack
  af := s.getPair .af
  bc := s.getPair .bc
  de := s.getPair .de
  hl := s.getPair .hl
  flagZ := s.f.z
  flagN := s.f.n
  flagH := s.f.h
  flagC := s.f.c
  faulted := s.faulted
  faultCause := s.faultCause
  faultInstr := s.faultInstr

end Sys2Proof.Machine
end

