-- ==== Sys2Proof/Machine/Step.lean ====
section
/-! DEFINITION. The step of the machine: one rising edge of clk (40_register_file_ports.md R69, R70). -/

namespace Sys2Proof.Machine

/-- One step is one rising edge: the inputs are sampled, and the command takes effect at that edge (R69). -/
def step (s : State) : Host.Outcome State Fault Refusal :=
  edge s.nextInput s.dropInput

/-- The driver presents EXEC of an opcode-table word at the very next edge (log entries 3 and 4). Nothing else changes. -/
def State.withFetchWord (s : State) (nbits w : Nat) : State :=
  s.present (execInput (portWordOfTable nbits w))

end Sys2Proof.Machine
end

