-- ==== Sys2Proof/Safety.lean ====
section
/-! DEFINITION. What counts as a safe run (60_exceptions.md R100: "no run that reaches it satisfies a claim") and the
invariant of the fault latch. -/

namespace Sys2Proof.Machine

/-- The fault latch says what happened (R32, R99, R103): a block that has not faulted records nothing, and a faulted one
records cause 1 and a word that no instruction has. Causes 2 and 3 are never written. -/
def State.LatchCoherent (s : State) : Prop :=
  (s.faulted = false ∧ s.faultCause = Config.causeNone ∧ s.faultInstr = Config.noFaultInstr) ∨
  (s.faulted = true ∧ s.faultCause = Config.causeUnimplementedOpcode ∧ implemented s.faultInstr = false)

/-- The edge is one at which a non-faulted block neither refuses nor faults: the input is well formed (R75, R81), and an
EXEC presents an implemented word (R98). A reset edge always is. -/
def harmless (p : CycleInput) : Bool :=
  p.wf && (p.rst || !(p.cmd == commandCodeOf .exec) || implemented p.instr)

/-- The run of `n` edges from `s` is safe: every edge answers a next state, and no state on the way is faulted, the first
and the last among them. -/
def SafeRun : Nat → State → Prop
  | 0, s => s.faulted = false
  | n + 1, s => s.faulted = false ∧ ∃ t, step s = .next t ∧ SafeRun n t

end Sys2Proof.Machine
end

