-- ==== Sys2Proof/Certificates/Slice0/Obligations.lean ====
section
/-! DEFINITION. The statements for the provers, from the numbered rules of spec/, file by file. They are about every state,
those no run reaches among them, unless a hypothesis says otherwise. -/

open Sys2Proof Sys2Proof.Machine

/-! ## 10_state.md: flags, pairs, outputs, reset values -/

/-- R19, R20, R21: where each flag sits in the F byte, that the low nibble reads 0, and what Unpack takes from a byte. (The
positions are the spec's decision D1; log entry 5.) -/
def Obligations.FlagByteLayout : Prop :=
  (∀ f : Flags,
    f.pack.getLsbD 7 = f.z ∧ f.pack.getLsbD 6 = f.n ∧ f.pack.getLsbD 5 = f.h ∧ f.pack.getLsbD 4 = f.c ∧
    f.pack.extractLsb' 0 4 = 0#4) ∧
  (∀ b : Byte, Flags.unpack b = ⟨b.getLsbD 7, b.getLsbD 6, b.getLsbD 5, b.getLsbD 4⟩)

/-- R22: the two round trips of the flag conversions. -/
def Obligations.FlagByteRoundTrip : Prop :=
  (∀ f : Flags, Flags.unpack f.pack = f) ∧
  (∀ b : Byte, (Flags.unpack b).pack = b &&& 0xF0#8) ∧
  (∀ b : Byte, (Flags.unpack b).pack = b ↔ b.extractLsb' 0 4 = 0#4)

/-- R25, R26: each pair is its first-named register times 256 plus its second, and AF's second is the F byte. -/
def Obligations.PairsFoldHighByteFirst : Prop :=
  ∀ s : State,
    (s.getPair .af).toNat = s.a.toNat * 256 + s.f.pack.toNat ∧
    (s.getPair .bc).toNat = s.b.toNat * 256 + s.c.toNat ∧
    (s.getPair .de).toNat = s.d.toNat * 256 + s.e.toNat ∧
    (s.getPair .hl).toNat = s.h.toNat * 256 + s.l.toNat

/-- R28: the round trips of fold and unfold, and a pair read after it was written: BC, DE and HL give back every value, AF
gives it back without its low nibble, so exactly when that nibble is zero. -/
def Obligations.PairReadAfterWrite : Prop :=
  (∀ hi lo : Byte, unfoldHi (fold hi lo) = hi ∧ unfoldLo (fold hi lo) = lo) ∧
  (∀ v : Word, fold (unfoldHi v) (unfoldLo v) = v) ∧
  (∀ (s : State) (v : Word),
    (s.setPair .bc v).getPair .bc = v ∧ (s.setPair .de v).getPair .de = v ∧ (s.setPair .hl v).getPair .hl = v ∧
    (s.setPair .af v).getPair .af = v &&& 0xFFF0#16 ∧
    ((s.setPair .af v).getPair .af = v ↔ v.extractLsb' 0 4 = 0#4))

/-- R79: every output port, as a function of the current state, whatever inputs are pending. -/
def Obligations.OutputsShowTheState : Prop :=
  ∀ (s : State) (pending : List CycleInput),
    ({ s with inputs := pending } : State).outputs = s.outputs ∧
    s.outputs.a = s.a ∧ s.outputs.b = s.b ∧ s.outputs.c = s.c ∧ s.outputs.d = s.d ∧ s.outputs.e = s.e ∧
    s.outputs.h = s.h ∧ s.outputs.l = s.l ∧ s.outputs.f = s.f.pack ∧
    s.outputs.af = s.getPair .af ∧ s.outputs.bc = s.getPair .bc ∧
    s.outputs.de = s.getPair .de ∧ s.outputs.hl = s.getPair .hl ∧
    s.outputs.flagZ = s.f.z ∧ s.outputs.flagN = s.f.n ∧ s.outputs.flagH = s.f.h ∧ s.outputs.flagC = s.f.c ∧
    s.outputs.faulted = s.faulted ∧ s.outputs.faultCause = s.faultCause ∧ s.outputs.faultInstr = s.faultInstr

/-- R34: every field after reset, and the four pair views. -/
def Obligations.ResetStateIsAllZero : Prop :=
  (∀ t : Target, State.reset.readReg t = 0x00#8) ∧
  State.reset.f = ⟨false, false, false, false⟩ ∧ State.reset.f.pack = 0x00#8 ∧
  (∀ p : Pair, State.reset.getPair p = 0x0000#16) ∧
  State.reset.faulted = false ∧ State.reset.faultCause = 0#2 ∧ State.reset.faultInstr = 0#9

/-! ## 30_encoding.md: decoding and encoding -/

/-- Words written out bit by bit from R53, R54, R55 decode to the instruction they stand for; neighbours that no rule
decodes do not (R58, R59). -/
def Obligations.SampleWordsDecode : Prop :=
  decode 0b010000000#9 = .instr .addAB ∧ decode 0b010001111#9 = .instr .adcAA ∧
  decode 0b010010101#9 = .instr .subL ∧ decode 0b010011011#9 = .instr .sbcAE ∧
  decode 0b010100100#9 = .instr .andH ∧ decode 0b010101010#9 = .instr .xorD ∧
  decode 0b010110001#9 = .instr .orC ∧ decode 0b010111111#9 = .instr .cpA ∧
  decode 0b000111100#9 = .instr .incA ∧ decode 0b000101101#9 = .instr .decL ∧
  decode 0b100110000#9 = .instr .swapB ∧
  decode 0b010000110#9 = .unimplemented .memoryOperand ∧ decode 0b000110100#9 = .unimplemented .memoryOperand ∧
  decode 0b100110110#9 = .unimplemented .memoryOperand ∧ decode 0b000110000#9 = .unimplemented .outsideFamilies ∧
  decode 0b110000000#9 = .unimplemented .outsideFamilies ∧ decode 0b000000000#9 = .unimplemented .outsideFamilies

/-- R56, R57: decoding and encoding agree both ways, over all instructions and all 512 words. No bit of an encoding is
dropped, and no two words decode to one instruction. -/
def Obligations.DecodeEncodeAgree : Prop :=
  (∀ i : Instr, decode (encode i) = .instr i) ∧
  (∀ (w : PortWord) (i : Instr), decode w = .instr i → encode i = w)

/-- R51: the program bytes of every instruction decode to it and leave what follows; bytes that decode to an instruction
begin with its program bytes. (The byte forms are the spec's general knowledge; log entry 6.) -/
def Obligations.ProgramBytesAgree : Prop :=
  (∀ (i : Instr) (rest : List Byte), decodeBytes (programBytes i ++ rest) = .instr i rest) ∧
  (∀ (bs rest : List Byte) (i : Instr), decodeBytes bs = .instr i rest → bs = programBytes i ++ rest)

/-- R57: exactly 77 of the 512 port words decode to an instruction. -/
def Obligations.SeventySevenWordsAreImplemented : Prop :=
  ((List.range 512).filter fun n => implemented (BitVec.ofNat 9 n)).length = 77

/-- R58: each of the eleven memory-operand words is UNIMPLEMENTED, and executing it raises the fault of R99. -/
def Obligations.MemoryOperandWordsFault : Prop :=
  ∀ (s : State) (p : CycleInput) (rest : List CycleInput),
    s.faulted = false → p.rst = false → p.cmd = 0b001#3 →
    p.instr ∈ [0x086#9, 0x08E#9, 0x096#9, 0x09E#9, 0x0A6#9, 0x0AE#9, 0x0B6#9, 0x0BE#9, 0x034#9, 0x035#9, 0x136#9] →
    decode p.instr = .unimplemented .memoryOperand ∧
    step { s with inputs := p :: rest } =
      .next { s with inputs := rest, faulted := true, faultCause := 1#2, faultInstr := p.instr }

/-! ## 40_register_file_ports.md: the edge and the host commands -/

/-- R70, R72: an EXEC edge of a running block whose word decodes to an instruction runs exactly that instruction, on the
state that has sampled the edge's input. -/
def Obligations.StepRunsDecodedInstruction : Prop :=
  ∀ (s : State) (p : CycleInput) (rest : List CycleInput) (i : Instr),
    s.faulted = false → p.rst = false → p.cmd = 0b001#3 → decode p.instr = .instr i →
    step { s with inputs := p :: rest } = exec i { s with inputs := rest }

/-- An opcode-table word presented by `withFetchWord` is what the very next edge runs (R50, R70; log entries 3 and 4). -/
def Obligations.FetchedWordRunsNext : Prop :=
  ∀ (s : State) (nbits w : Nat) (i : Instr),
    s.faulted = false → decodeTableWord nbits w = some i → step (s.withFetchWord nbits w) = exec i s

/-- R71: a NOP edge of a running block changes nothing. -/
def Obligations.NopChangesNothing : Prop :=
  ∀ (s : State) (p : CycleInput) (rest : List CycleInput),
    s.faulted = false → p.rst = false → p.cmd = 0b000#3 →
    step { s with inputs := p :: rest } = .next { s with inputs := rest }

/-- The model's choice (log entry 2): when the driver presents nothing, the block is idle. -/
def Obligations.NoInputIsIdle : Prop :=
  ∀ s : State, s.inputs = [] → step s = .next s

/-- R74: WRITE_REG overwrites the selected register with wdata[7:0] and changes nothing else. -/
def Obligations.WriteRegCommand : Prop :=
  ∀ (s : State) (p : CycleInput) (rest : List CycleInput) (t : Target),
    s.faulted = false → p.rst = false → p.cmd = 0b010#3 → p.regSel = codeOf t →
    ∃ s', step { s with inputs := p :: rest } = .next s' ∧
      s'.readReg t = p.wdata.extractLsb' 0 8 ∧ (∀ u, u ≠ t → s'.readReg u = s.readReg u) ∧
      s'.f = s.f ∧ s'.faulted = s.faulted ∧ s'.faultCause = s.faultCause ∧ s'.faultInstr = s.faultInstr ∧
      s'.inputs = rest

/-- R75 (the r codes of R52): the reg_sel codes, both ways, and that a WRITE_REG with the one code that names no register
is refused, and the run with it. -/
def Obligations.RegisterSelectCodes : Prop :=
  codeOf .b = 0b000#3 ∧ codeOf .c = 0b001#3 ∧ codeOf .d = 0b010#3 ∧ codeOf .e = 0b011#3 ∧ codeOf .h = 0b100#3 ∧
  codeOf .l = 0b101#3 ∧ codeOf .a = 0b111#3 ∧
  targetOf 0b000#3 = some .b ∧ targetOf 0b001#3 = some .c ∧ targetOf 0b010#3 = some .d ∧ targetOf 0b011#3 = some .e ∧
  targetOf 0b100#3 = some .h ∧ targetOf 0b101#3 = some .l ∧ targetOf 0b111#3 = some .a ∧ targetOf 0b110#3 = none ∧
  ∀ (s : State) (p : CycleInput) (rest : List CycleInput),
    s.faulted = false → p.rst = false → p.cmd = 0b010#3 → p.regSel = 0b110#3 →
    step { s with inputs := p :: rest } = .refused .writeRegNoRegister ∧
    ∀ n, Sys2Proof.core.run (n + 1) { s with inputs := p :: rest } = .refused .writeRegNoRegister

/-- R27, R76, R77: SET_PAIR writes both bytes of the selected pair at one edge and nothing else; AF's low byte goes to the
four flags, wdata[3:0] is discarded. -/
def Obligations.SetPairCommand : Prop :=
  ∀ (s : State) (p : CycleInput) (rest : List CycleInput),
    s.faulted = false → p.rst = false → p.cmd = 0b011#3 →
    (p.pairSel = 0b00#2 → step { s with inputs := p :: rest } =
      .next { s with inputs := rest, b := p.wdata.extractLsb' 8 8, c := p.wdata.extractLsb' 0 8 }) ∧
    (p.pairSel = 0b01#2 → step { s with inputs := p :: rest } =
      .next { s with inputs := rest, d := p.wdata.extractLsb' 8 8, e := p.wdata.extractLsb' 0 8 }) ∧
    (p.pairSel = 0b10#2 → step { s with inputs := p :: rest } =
      .next { s with inputs := rest, h := p.wdata.extractLsb' 8 8, l := p.wdata.extractLsb' 0 8 }) ∧
    (p.pairSel = 0b11#2 → step { s with inputs := p :: rest } =
      .next { s with
        inputs := rest
        a := p.wdata.extractLsb' 8 8
        f := ⟨p.wdata.getLsbD 7, p.wdata.getLsbD 6, p.wdata.getLsbD 5, p.wdata.getLsbD 4⟩ })

/-- R78: SET_FLAGS writes the four flags from wdata[7:4] and nothing else. -/
def Obligations.SetFlagsCommand : Prop :=
  ∀ (s : State) (p : CycleInput) (rest : List CycleInput),
    s.faulted = false → p.rst = false → p.cmd = 0b100#3 →
    step { s with inputs := p :: rest } =
      .next { s with
        inputs := rest
        f := ⟨p.wdata.getLsbD 7, p.wdata.getLsbD 6, p.wdata.getLsbD 5, p.wdata.getLsbD 4⟩ }

/-- R81: a reserved command code is refused, with rst = 0 and faulted = 0, and the run with it. -/
def Obligations.ReservedCommandRefused : Prop :=
  ∀ (s : State) (p : CycleInput) (rest : List CycleInput),
    s.faulted = false → p.rst = false → (p.cmd = 0b101#3 ∨ p.cmd = 0b110#3 ∨ p.cmd = 0b111#3) →
    step { s with inputs := p :: rest } = .refused (.reservedCommand p.cmd) ∧
    ∀ n, Sys2Proof.core.run (n + 1) { s with inputs := p :: rest } = .refused (.reservedCommand p.cmd)

/-- R75, R81 and the three outcomes: exactly when a step is refused, and with what name. -/
def Obligations.RefusedExactlyWhenNothingIsNamed : Prop :=
  ∀ (s : State) (r : Refusal),
    step s = .refused r ↔
      ∃ p rest, s.inputs = p :: rest ∧ s.faulted = false ∧ p.rst = false ∧
        (((p.cmd = 0b101#3 ∨ p.cmd = 0b110#3 ∨ p.cmd = 0b111#3) ∧ r = .reservedCommand p.cmd) ∨
         (p.cmd = 0b010#3 ∧ p.regSel = 0b110#3 ∧ r = .writeRegNoRegister))

/-- R82: a host command that names what it writes completes and leaves the fault fields. -/
def Obligations.HostCommandsNeverFault : Prop :=
  ∀ (s : State) (p : CycleInput) (rest : List CycleInput),
    s.faulted = false → p.rst = false → (p.cmd = 0b010#3 ∨ p.cmd = 0b011#3 ∨ p.cmd = 0b100#3) →
    (p.cmd = 0b010#3 → p.regSel ≠ 0b110#3) →
    ∃ s', step { s with inputs := p :: rest } = .next s' ∧
      s'.faulted = false ∧ s'.faultCause = s.faultCause ∧ s'.faultInstr = s.faultInstr

/-- R84: two edges that agree on rst, on cmd and on what the command uses have the same outcome. For WRITE_REG that is
reg_sel and wdata[7:0]; for SET_PAIR pair_sel and wdata, of AF without wdata[3:0] (R76); for SET_FLAGS wdata[7:4]. -/
def Obligations.UnusedInputsDoNotMatter : Prop :=
  ∀ (s : State) (p q : CycleInput) (rest : List CycleInput),
    p.rst = q.rst → p.cmd = q.cmd →
    (p.cmd = 0b001#3 → p.instr = q.instr) →
    (p.cmd = 0b010#3 → p.regSel = q.regSel ∧ p.wdata.extractLsb' 0 8 = q.wdata.extractLsb' 0 8) →
    (p.cmd = 0b011#3 → p.pairSel = q.pairSel ∧ p.wdata.extractLsb' 4 12 = q.wdata.extractLsb' 4 12 ∧
      (p.pairSel ≠ 0b11#2 → p.wdata = q.wdata)) →
    (p.cmd = 0b100#3 → p.wdata.extractLsb' 4 4 = q.wdata.extractLsb' 4 4) →
    step { s with inputs := p :: rest } = step { s with inputs := q :: rest }

/-- R45: a second identical WRITE_REG, SET_PAIR or SET_FLAGS changes nothing. -/
def Obligations.RepeatedHostWriteChangesNothing : Prop :=
  ∀ (s s' : State) (p : CycleInput) (rest : List CycleInput),
    p.rst = false → (p.cmd = 0b010#3 ∨ p.cmd = 0b011#3 ∨ p.cmd = 0b100#3) →
    step { s with inputs := p :: p :: rest } = .next s' →
    step s' = .next { s' with inputs := rest }

/-- R83, R120: the next EXEC sees what the previous command wrote: WRITE_REG to the target, then ADD of that target. -/
def Obligations.ExecSeesTheHostWrite : Prop :=
  ∀ (s : State) (v : Byte) (t : Target) (p q : CycleInput),
    s.faulted = false → p.rst = false → p.cmd = 0b010#3 → p.regSel = codeOf t → p.wdata.extractLsb' 0 8 = v →
    q.rst = false → q.cmd = 0b001#3 → q.instr = encode (Instr.ofPair .add t) →
    ∃ s', Sys2Proof.core.run 2 { s with inputs := [p, q] } = .next s' ∧
      s'.a = (if t = .a then v + v else s.a + v)

/-! ## 41_arithmetic.md -/

/-- R86: ADD. The whole next state: A and F as the rule gives them, everything else as before. -/
def Obligations.AddResult : Prop :=
  ∀ (i : Instr) (s : State), i.family = .add →
    encode i = 0x080#9 ||| (codeOf i.target).setWidth 9 ∧
    exec i s = .next { s with
      a := s.a + s.readReg i.target
      f := { z := decide (s.a + s.readReg i.target = 0x00#8)
             n := false
             h := decide ((s.a &&& 0x0F#8).toNat + (s.readReg i.target &&& 0x0F#8).toNat > 0xF)
             c := decide (s.a.toNat + (s.readReg i.target).toNat > 0xFF) } }

/-- R87: ADC. carry_in enters the sum and the carry, not the half-carry. -/
def Obligations.AdcResult : Prop :=
  ∀ (i : Instr) (s : State), i.family = .adc →
    encode i = 0x088#9 ||| (codeOf i.target).setWidth 9 ∧
    exec i s = .next { s with
      a := s.a + s.readReg i.target + (if s.f.c then 1#8 else 0#8)
      f := { z := decide (s.a + s.readReg i.target + (if s.f.c then 1#8 else 0#8) = 0x00#8)
             n := false
             h := decide ((s.a &&& 0x0F#8).toNat + (s.readReg i.target &&& 0x0F#8).toNat > 0xF)
             c := decide (s.a.toNat + (s.readReg i.target).toNat + (if s.f.c then 1 else 0) > 0xFF) } }

/-- R88: SUB, with the half-carry as the compare of unbounded integers. -/
def Obligations.SubResult : Prop :=
  ∀ (i : Instr) (s : State), i.family = .sub →
    encode i = 0x090#9 ||| (codeOf i.target).setWidth 9 ∧
    exec i s = .next { s with
      a := s.a - s.readReg i.target
      f := { z := decide (s.a - s.readReg i.target = 0x00#8)
             n := true
             h := decide (((s.a &&& 0x0F#8).toNat : Int) - ((s.readReg i.target &&& 0x0F#8).toNat : Int) < 0)
             c := decide (s.a.toNat < (s.readReg i.target).toNat) } }

/-- R89: SBC. `tmp = (v - ci) mod 256` first, then `a - tmp`; h from `value`, c from `tmp`. (That the inner subtraction
wraps is the spec's decision D3; log entry 7.) -/
def Obligations.SbcResult : Prop :=
  ∀ (i : Instr) (s : State) (tmp : Byte), i.family = .sbc →
    tmp = s.readReg i.target - (if s.f.c then 1#8 else 0#8) →
    encode i = 0x098#9 ||| (codeOf i.target).setWidth 9 ∧
    exec i s = .next { s with
      a := s.a - tmp
      f := { z := decide (s.a - tmp = 0x00#8)
             n := true
             h := decide (((s.a &&& 0x0F#8).toNat : Int) - ((s.readReg i.target &&& 0x0F#8).toNat : Int) < 0)
             c := decide (s.a.toNat < tmp.toNat) } }

/-- R90: CP. F only; no register is written. -/
def Obligations.CpResult : Prop :=
  ∀ (i : Instr) (s : State), i.family = .cp →
    encode i = 0x0B8#9 ||| (codeOf i.target).setWidth 9 ∧
    exec i s = .next { s with
      f := { z := decide (s.a - s.readReg i.target = 0x00#8)
             n := true
             h := decide (((s.a &&& 0x0F#8).toNat : Int) - ((s.readReg i.target &&& 0x0F#8).toNat : Int) < 0)
             c := decide (s.a.toNat < (s.readReg i.target).toNat) } }

/-- R85: in hardware terms, the half-carry of ADD is the carry out of the 4-bit sum and its carry that of the 8-bit sum;
for SUB and CP they are the borrows of the 4-bit and the 8-bit difference. -/
def Obligations.HalfCarryIsTheNibbleTap : Prop :=
  ∀ (i : Instr) (s : State),
    (i.family = .add → ∃ t, exec i s = .next t ∧
      t.f.h = ((s.a.extractLsb' 0 4).setWidth 5 + ((s.readReg i.target).extractLsb' 0 4).setWidth 5).msb ∧
      t.f.c = (s.a.setWidth 9 + (s.readReg i.target).setWidth 9).msb) ∧
    (i.family = .sub ∨ i.family = .cp → ∃ t, exec i s = .next t ∧
      t.f.h = ((s.a.extractLsb' 0 4).setWidth 5 - ((s.readReg i.target).extractLsb' 0 4).setWidth 5).msb ∧
      t.f.c = (s.a.setWidth 9 - (s.readReg i.target).setWidth 9).msb)

/-- R86, R87 and R88, R89 (corner cases): with the carry clear, ADC is ADD and SBC is SUB, in result and in all flags. -/
def Obligations.CarryFormsWithoutCarry : Prop :=
  ∀ (t : Target) (s : State), s.f.c = false →
    exec (Instr.ofPair .adc t) s = exec (Instr.ofPair .add t) s ∧
    exec (Instr.ofPair .sbc t) s = exec (Instr.ofPair .sub t) s

/-- R89 (corner cases): with the carry set, SBC of a zero register gives A + 1 with h = 0 and c = 1 unless A = 0xFF; and
SBC A,A gives 0x01, with c = 1 only when A = 0x00. -/
def Obligations.SbcWithCarryCorners : Prop :=
  (∀ (i : Instr) (s : State), i.family = .sbc → s.f.c = true → s.readReg i.target = 0x00#8 →
    ∃ t, exec i s = .next t ∧ t.a = s.a + 1#8 ∧ t.f.h = false ∧ t.f.c = decide (s.a ≠ 0xFF#8)) ∧
  (∀ s : State, s.f.c = true →
    ∃ t, exec .sbcAA s = .next t ∧ t.a = 0x01#8 ∧ t.f.h = false ∧ t.f.c = decide (s.a = 0x00#8))

/-- R90: CP leaves what SUB would, but for A. -/
def Obligations.CpLeavesTheFlagsOfSub : Prop :=
  ∀ (t : Target) (s : State), ∃ u w,
    exec (Instr.ofPair .sub t) s = .next u ∧ exec (Instr.ofPair .cp t) s = .next w ∧ w = { u with a := s.a }

/-- R120's own example, these two port words: ADD A,B (0x080) followed at once by ADC A,C (0x089) reads the carry the ADD
produced. -/
def Obligations.AdcACAfterAddABSeesItsCarry : Prop :=
  ∀ (s : State) (p q : CycleInput),
    s.faulted = false → p.rst = false → p.cmd = 0b001#3 → p.instr = 0x080#9 →
    q.rst = false → q.cmd = 0b001#3 → q.instr = 0x089#9 →
    ∃ t, Sys2Proof.core.run 2 { s with inputs := [p, q] } = .next t ∧
      t.a = s.a + s.b + s.c + (if s.a.toNat + s.b.toNat > 0xFF then 1#8 else 0#8) ∧
      t.b = s.b ∧ t.c = s.c

/-! ## 42_logic.md -/

/-- R91: AND sets the half-carry and clears the carry. -/
def Obligations.AndResult : Prop :=
  ∀ (i : Instr) (s : State), i.family = .and →
    encode i = 0x0A0#9 ||| (codeOf i.target).setWidth 9 ∧
    exec i s = .next { s with
      a := s.a &&& s.readReg i.target
      f := { z := decide (s.a &&& s.readReg i.target = 0x00#8), n := false, h := true, c := false } }

/-- R92: OR. -/
def Obligations.OrResult : Prop :=
  ∀ (i : Instr) (s : State), i.family = .or →
    encode i = 0x0B0#9 ||| (codeOf i.target).setWidth 9 ∧
    exec i s = .next { s with
      a := s.a ||| s.readReg i.target
      f := { z := decide (s.a ||| s.readReg i.target = 0x00#8), n := false, h := false, c := false } }

/-- R93: XOR. -/
def Obligations.XorResult : Prop :=
  ∀ (i : Instr) (s : State), i.family = .xor →
    encode i = 0x0A8#9 ||| (codeOf i.target).setWidth 9 ∧
    exec i s = .next { s with
      a := s.a ^^^ s.readReg i.target
      f := { z := decide (s.a ^^^ s.readReg i.target = 0x00#8), n := false, h := false, c := false } }

/-- R91, R92, R93 (corner cases): XOR A always gives A = 0x00 and F = 0x80; AND A and OR A leave A, with z exactly when A
is zero. -/
def Obligations.LogicOfAWithItself : Prop :=
  ∀ s : State,
    exec .xorA s = .next { s with a := 0x00#8, f := Flags.unpack 0x80#8 } ∧
    exec .andA s = .next { s with f := ⟨decide (s.a = 0x00#8), false, true, false⟩ } ∧
    exec .orA s = .next { s with f := ⟨decide (s.a = 0x00#8), false, false, false⟩ }

/-! ## 43_inc_dec.md, 44_swap.md -/

/-- R94, R96: INC on any target: the target plus one, the half-carry from A's low nibble before the instruction whatever
the target, the carry as it was, and nothing else. -/
def Obligations.IncResult : Prop :=
  ∀ (i : Instr) (s : State), i.family = .inc →
    encode i = ((codeOf i.target).setWidth 9 <<< 3) ||| 0x004#9 ∧
    ∃ t, exec i s = .next t ∧
      t.readReg i.target = s.readReg i.target + 1#8 ∧
      (∀ u, u ≠ i.target → t.readReg u = s.readReg u) ∧
      t.f = { z := decide (s.readReg i.target + 1#8 = 0x00#8)
              n := false
              h := decide ((s.a &&& 0x0F#8).toNat + 1 > 0xF)
              c := s.f.c } ∧
      t.faulted = s.faulted ∧ t.faultCause = s.faultCause ∧ t.faultInstr = s.faultInstr ∧ t.inputs = s.inputs

/-- R95, R96: DEC on any target, likewise. -/
def Obligations.DecResult : Prop :=
  ∀ (i : Instr) (s : State), i.family = .dec →
    encode i = ((codeOf i.target).setWidth 9 <<< 3) ||| 0x005#9 ∧
    ∃ t, exec i s = .next t ∧
      t.readReg i.target = s.readReg i.target - 1#8 ∧
      (∀ u, u ≠ i.target → t.readReg u = s.readReg u) ∧
      t.f = { z := decide (s.readReg i.target - 1#8 = 0x00#8)
              n := true
              h := decide (((s.a &&& 0x0F#8).toNat : Int) - 1 < 0)
              c := s.f.c } ∧
      t.faulted = s.faulted ∧ t.faultCause = s.faultCause ∧ t.faultInstr = s.faultInstr ∧ t.inputs = s.inputs

/-- R94, R95 (and the source's own example L1-6 of 95_test_vectors.md): INC then DEC of one register gives back every
register, and the carry is never touched. -/
def Obligations.IncThenDecRestores : Prop :=
  ∀ (t : Target) (s : State), ∃ u w,
    exec (Instr.ofPair .inc t) s = .next u ∧ exec (Instr.ofPair .dec t) u = .next w ∧
    (∀ r, w.readReg r = s.readReg r) ∧ u.f.c = s.f.c ∧ w.f.c = s.f.c

/-- R97: SWAP exchanges the nibbles of any target and clears all four flags, also when the result is zero. -/
def Obligations.SwapResult : Prop :=
  ∀ (i : Instr) (s : State), i.family = .swap →
    encode i = 0x130#9 ||| (codeOf i.target).setWidth 9 ∧
    ∃ t, exec i s = .next t ∧
      (t.readReg i.target).extractLsb' 4 4 = (s.readReg i.target).extractLsb' 0 4 ∧
      (t.readReg i.target).extractLsb' 0 4 = (s.readReg i.target).extractLsb' 4 4 ∧
      (∀ u, u ≠ i.target → t.readReg u = s.readReg u) ∧
      t.f = ⟨false, false, false, false⟩ ∧
      t.faulted = s.faulted ∧ t.faultCause = s.faultCause ∧ t.faultInstr = s.faultInstr ∧ t.inputs = s.inputs

/-- R97 (corner cases): SWAP twice gives back the original value; equal nibbles are unchanged. -/
def Obligations.SwapTwiceRestores : Prop :=
  ∀ (t : Target) (s : State), ∃ u w,
    exec (Instr.ofPair .swap t) s = .next u ∧ exec (Instr.ofPair .swap t) u = .next w ∧
    (∀ r, w.readReg r = s.readReg r) ∧
    ((s.readReg t).extractLsb' 0 4 = (s.readReg t).extractLsb' 4 4 → ∀ r, u.readReg r = s.readReg r)

/-! ## Over all instructions -/

/-- R16, R17, R73: the frame of all 77 instructions. ADD, ADC, SUB, SBC, AND, OR and XOR change no register but A; CP
changes none; INC, DEC and SWAP change none but the target. No instruction changes the fault fields or the pending inputs. -/
def Obligations.OnlyTheDestinationChanges : Prop :=
  ∀ (i : Instr) (s t : State), exec i s = .next t →
    (i.family = .add ∨ i.family = .adc ∨ i.family = .sub ∨ i.family = .sbc ∨ i.family = .and ∨ i.family = .or ∨
      i.family = .xor → ∀ r, r ≠ .a → t.readReg r = s.readReg r) ∧
    (i.family = .cp → ∀ r, t.readReg r = s.readReg r) ∧
    (i.family = .inc ∨ i.family = .dec ∨ i.family = .swap → ∀ r, r ≠ i.target → t.readReg r = s.readReg r) ∧
    t.faulted = s.faulted ∧ t.faultCause = s.faultCause ∧ t.faultInstr = s.faultInstr ∧ t.inputs = s.inputs

/-- R23, R24: flags are overwritten, not merged. What an instruction leaves in every register and in F depends on the
registers before it and, for ADC, SBC, INC and DEC only, on the carry; never on the old zero, subtract or half-carry. INC
and DEC keep the carry. -/
def Obligations.FlagsAreOverwrittenNotMerged : Prop :=
  ∀ (i : Instr) (s s' : State),
    (∀ r, s.readReg r = s'.readReg r) →
    (i.family = .adc ∨ i.family = .sbc ∨ i.family = .inc ∨ i.family = .dec → s.f.c = s'.f.c) →
    ∃ t t', exec i s = .next t ∧ exec i s' = .next t' ∧ t.f = t'.f ∧ (∀ r, t.readReg r = t'.readReg r) ∧
      (i.family = .inc ∨ i.family = .dec → t.f.c = s.f.c)

/-- R24: the constant flags of each family, and that SWAP's zero flag is always 0. -/
def Obligations.ConstantFlagsOfEveryFamily : Prop :=
  ∀ (i : Instr) (s : State), ∃ t, exec i s = .next t ∧
    (t.f.n = true ↔ i.family = .sub ∨ i.family = .sbc ∨ i.family = .cp ∨ i.family = .dec) ∧
    (i.family = .and → t.f.h = true) ∧
    (i.family = .or ∨ i.family = .xor ∨ i.family = .swap → t.f.h = false) ∧
    (i.family = .and ∨ i.family = .or ∨ i.family = .xor ∨ i.family = .swap → t.f.c = false) ∧
    (i.family = .swap → t.f.z = false)

/-- R104: an EXEC edge of a running block with the port word of any of the 77 instructions completes in that edge, in a
state that is not faulted. -/
def Obligations.EveryInstructionCompletesInItsCycle : Prop :=
  ∀ (i : Instr) (s : State) (p : CycleInput) (rest : List CycleInput),
    s.faulted = false → p.rst = false → p.cmd = 0b001#3 → p.instr = encode i →
    ∃ t, step { s with inputs := p :: rest } = .next t ∧ t.faulted = false ∧ t.inputs = rest

/-! ## 60_exceptions.md -/

/-- R98, R99: an EXEC of a word that is the port word of none of the 77 instructions takes the fault: the latch, the cause
and the word are recorded, and nothing else changes. -/
def Obligations.UnimplementedWordTakesTheFault : Prop :=
  ∀ (s : State) (p : CycleInput) (rest : List CycleInput),
    s.faulted = false → p.rst = false → p.cmd = 0b001#3 → (∀ i : Instr, encode i ≠ p.instr) →
    step { s with inputs := p :: rest } =
      .next { s with inputs := rest, faulted := true, faultCause := 1#2, faultInstr := p.instr }

/-- R101: the fault shows at the outputs from the edge that raises it, and every register output is as before. -/
def Obligations.FaultShowsAtTheOutputs : Prop :=
  ∀ (s : State) (p : CycleInput) (rest : List CycleInput),
    s.faulted = false → p.rst = false → p.cmd = 0b001#3 → (∀ i : Instr, encode i ≠ p.instr) →
    ∃ t, step { s with inputs := p :: rest } = .next t ∧
      t.outputs = { s.outputs with faulted := true, faultCause := 1#2, faultInstr := p.instr }

/-- R100: while faulted, an edge with rst = 0 leaves the whole state, whatever it presents, a reserved code too; an edge
with rst = 1 clears the fault. -/
def Obligations.FaultIsSticky : Prop :=
  ∀ (s : State) (p : CycleInput) (rest : List CycleInput), s.faulted = true →
    (p.rst = false → step { s with inputs := p :: rest } = .next { s with inputs := rest }) ∧
    (p.rst = true → ∃ t, step { s with inputs := p :: rest } = .next t ∧ t.faulted = false)

/-- R100 over whole runs: any number of edges without a reset leaves a faulted block as it was. -/
def Obligations.FaultLastsUntilReset : Prop :=
  ∀ (ps rest : List CycleInput) (s : State),
    s.faulted = true → (∀ p ∈ ps, p.rst = false) →
    Sys2Proof.core.run ps.length { s with inputs := ps ++ rest } = .next { s with inputs := rest }

/-- R32, R103 at reset: the fault latch is coherent. -/
def Obligations.LatchCoherentAtReset : Prop :=
  State.reset.LatchCoherent

/-- R32, R99, R103: every step keeps the fault latch coherent, from every state where it is: not faulted with cause 0 and
word 0, or faulted with cause 1 and a word no instruction has. So causes 2 and 3 are never written. -/
def Obligations.StepKeepsLatchCoherent : Prop :=
  ∀ s t : State, s.LatchCoherent → step s = .next t → t.LatchCoherent

/-- A running block that is only ever presented well-formed inputs and implemented words never refuses and never faults,
for any number of edges (R75, R81, R98, R102, R104). -/
def Obligations.HarmlessInputsNeverStopTheBlock : Prop :=
  ∀ (n : Nat) (s : State), s.faulted = false → (∀ p ∈ s.inputs, harmless p = true) → SafeRun n s

/-! ## 70_reset_and_hazards.md -/

/-- R105, R117, R118: an edge with rst = 1 gives the reset state from any state, whatever the other inputs hold and whether
or not the block is faulted. -/
def Obligations.ResetEdgeFromAnyState : Prop :=
  ∀ (s : State) (p : CycleInput) (rest : List CycleInput), p.rst = true →
    ∃ t, step { s with inputs := p :: rest } = .next t ∧
      (∀ r, t.readReg r = 0x00#8) ∧ t.f = ⟨false, false, false, false⟩ ∧
      t.faulted = false ∧ t.faultCause = 0#2 ∧ t.faultInstr = 0#9 ∧ t.inputs = rest

/-- R35, R119: what the block held before a reset edge is forgotten: two blocks in any states, presented the same inputs, are
the same after any run that has passed a reset edge. -/
def Obligations.StateBeforeResetIsForgotten : Prop :=
  ∀ (n k : Nat) (s s' t t' : State) (p : CycleInput),
    s.inputs = s'.inputs → k < n → s.inputs[k]? = some p → p.rst = true →
    Sys2Proof.core.run n s = .next t → Sys2Proof.core.run n s' = .next t' → t = t'

/-! ## Assembler spelling -/

/-- R63: a line in any accepted spelling assembles to its instruction. -/
def Obligations.SpellingsAssemble : Prop :=
  ∀ (i : Instr) (line : String), line ∈ i.spellings → assemble line = some i
end

