-- ==== Sys2Proof/Laws/State.lean ====
section
/-! SUPPORT. What each operation on the register file does to each field, once, so that no later proof unfolds an update. -/

namespace Sys2Proof.Machine

section
variable (s : State) (t u : Target) (v : Byte) (fl : Flags) (p : Pair) (x : Word) (r : Result) (w : PortWord)
  (i : CycleInput)

/-! ## readReg -/

@[simp] theorem State.readReg_a : s.readReg .a = s.a := rfl
@[simp] theorem State.readReg_b : s.readReg .b = s.b := rfl
@[simp] theorem State.readReg_c : s.readReg .c = s.c := rfl
@[simp] theorem State.readReg_d : s.readReg .d = s.d := rfl
@[simp] theorem State.readReg_e : s.readReg .e = s.e := rfl
@[simp] theorem State.readReg_h : s.readReg .h = s.h := rfl
@[simp] theorem State.readReg_l : s.readReg .l = s.l := rfl

/-! ## writeReg -/

@[simp] theorem State.readReg_writeReg_self : (s.writeReg t v).readReg t = v := by cases t <;> rfl
theorem State.readReg_writeReg_of_ne (h : u ≠ t) : (s.writeReg t v).readReg u = s.readReg u := by
  cases t <;> cases u <;> first | rfl | exact absurd rfl h
@[simp] theorem State.readReg_writeReg : (s.writeReg t v).readReg u = if u = t then v else s.readReg u := by
  by_cases h : u = t
  · subst h; simp
  · rw [if_neg h, State.readReg_writeReg_of_ne s t u v h]
@[simp] theorem State.writeReg_f : (s.writeReg t v).f = s.f := by cases t <;> rfl
@[simp] theorem State.writeReg_faulted : (s.writeReg t v).faulted = s.faulted := by cases t <;> rfl
@[simp] theorem State.writeReg_faultCause : (s.writeReg t v).faultCause = s.faultCause := by cases t <;> rfl
@[simp] theorem State.writeReg_faultInstr : (s.writeReg t v).faultInstr = s.faultInstr := by cases t <;> rfl
@[simp] theorem State.writeReg_inputs : (s.writeReg t v).inputs = s.inputs := by cases t <;> rfl

/-! ## writeFlags -/

@[simp] theorem State.writeFlags_f : (s.writeFlags fl).f = fl := rfl
@[simp] theorem State.readReg_writeFlags : (s.writeFlags fl).readReg t = s.readReg t := by cases t <;> rfl
@[simp] theorem State.writeFlags_faulted : (s.writeFlags fl).faulted = s.faulted := rfl
@[simp] theorem State.writeFlags_faultCause : (s.writeFlags fl).faultCause = s.faultCause := rfl
@[simp] theorem State.writeFlags_faultInstr : (s.writeFlags fl).faultInstr = s.faultInstr := rfl
@[simp] theorem State.writeFlags_inputs : (s.writeFlags fl).inputs = s.inputs := rfl

/-! ## setPair -/

@[simp] theorem State.setPair_faulted : (s.setPair p x).faulted = s.faulted := by cases p <;> rfl
@[simp] theorem State.setPair_faultCause : (s.setPair p x).faultCause = s.faultCause := by cases p <;> rfl
@[simp] theorem State.setPair_faultInstr : (s.setPair p x).faultInstr = s.faultInstr := by cases p <;> rfl
@[simp] theorem State.setPair_inputs : (s.setPair p x).inputs = s.inputs := by cases p <;> rfl

/-! ## commit -/

@[simp] theorem State.commit_f : (s.commit r).f = r.flags := by unfold State.commit; split <;> rfl
@[simp] theorem State.commit_faulted : (s.commit r).faulted = s.faulted := by unfold State.commit; split <;> simp
@[simp] theorem State.commit_faultCause : (s.commit r).faultCause = s.faultCause := by
  unfold State.commit; split <;> simp
@[simp] theorem State.commit_faultInstr : (s.commit r).faultInstr = s.faultInstr := by
  unfold State.commit; split <;> simp
@[simp] theorem State.commit_inputs : (s.commit r).inputs = s.inputs := by unfold State.commit; split <;> simp
@[simp] theorem State.readReg_commit :
    (s.commit r).readReg t = if r.dest = some t then r.value else s.readReg t := by
  unfold State.commit
  cases r.dest with
  | none => simp
  | some dest => simp [eq_comm]

/-! ## raiseUnimplemented, applyReset -/

@[simp] theorem State.readReg_raise : (s.raiseUnimplemented w).readReg t = s.readReg t := by cases t <;> rfl
@[simp] theorem State.raise_f : (s.raiseUnimplemented w).f = s.f := rfl
@[simp] theorem State.raise_faulted : (s.raiseUnimplemented w).faulted = true := rfl
@[simp] theorem State.raise_faultCause :
    (s.raiseUnimplemented w).faultCause = Config.causeUnimplementedOpcode := rfl
@[simp] theorem State.raise_faultInstr : (s.raiseUnimplemented w).faultInstr = w := rfl
@[simp] theorem State.raise_inputs : (s.raiseUnimplemented w).inputs = s.inputs := rfl
@[simp] theorem State.readReg_applyReset : s.applyReset.readReg t = 0#8 := by cases t <;> rfl
@[simp] theorem State.applyReset_f : s.applyReset.f = Flags.reset := rfl
@[simp] theorem State.applyReset_faulted : s.applyReset.faulted = false := rfl
@[simp] theorem State.applyReset_faultCause : s.applyReset.faultCause = Config.causeNone := rfl
@[simp] theorem State.applyReset_faultInstr : s.applyReset.faultInstr = Config.noFaultInstr := rfl
@[simp] theorem State.applyReset_inputs : s.applyReset.inputs = s.inputs := rfl

/-! ## The pending inputs -/

@[simp] theorem State.readReg_dropInput : s.dropInput.readReg t = s.readReg t := by cases t <;> rfl
@[simp] theorem State.dropInput_f : s.dropInput.f = s.f := rfl
@[simp] theorem State.dropInput_faulted : s.dropInput.faulted = s.faulted := rfl
@[simp] theorem State.dropInput_faultCause : s.dropInput.faultCause = s.faultCause := rfl
@[simp] theorem State.dropInput_faultInstr : s.dropInput.faultInstr = s.faultInstr := rfl
@[simp] theorem State.dropInput_inputs : s.dropInput.inputs = s.inputs.tail := rfl
@[simp] theorem State.dropInput_present : (s.present i).dropInput = s := rfl
@[simp] theorem State.nextInput_present : (s.present i).nextInput = i := rfl

end
end Sys2Proof.Machine
end

