-- ==== Sys2Proof/Laws/Decode.lean ====
section
/-! SUPPORT. Small facts of the code tables (R52, R68, R77) and of the (family, target) view (R66). -/

namespace Sys2Proof

@[simp] theorem targetOf_codeOf (t : Target) : targetOf (codeOf t) = some t := by cases t <;> rfl
@[simp] theorem pairOf_pairCodeOf (p : Pair) : pairOf (pairCodeOf p) = p := by cases p <;> rfl
@[simp] theorem commandOf_commandCodeOf (c : Command) : commandOf (commandCodeOf c) = some c := by cases c <;> rfl

@[simp] theorem Instr.family_ofPair (f : Family) (t : Target) : (Instr.ofPair f t).family = f := by
  cases f <;> cases t <;> rfl
@[simp] theorem Instr.target_ofPair (f : Family) (t : Target) : (Instr.ofPair f t).target = t := by
  cases f <;> cases t <;> rfl

theorem mem_target_all (t : Target) : t ∈ Target.all := by cases t <;> decide
theorem mem_family_all (f : Family) : f ∈ Family.all := by cases f <;> decide

/-- The five command codes and the three reserved ones are all there is (R68, R81). -/
theorem commandOf_cases (c : BitVec 3) :
    (∃ k, c = commandCodeOf k ∧ commandOf c = some k) ∨
    ((c = 0b101#3 ∨ c = 0b110#3 ∨ c = 0b111#3) ∧ commandOf c = none) := by
  have h : c = 0 ∨ c = 1 ∨ c = 2 ∨ c = 3 ∨ c = 4 ∨ c = 5 ∨ c = 6 ∨ c = 7 := by bv_omega
  rcases h with rfl | rfl | rfl | rfl | rfl | rfl | rfl | rfl
  · exact .inl ⟨.nop, rfl, rfl⟩
  · exact .inl ⟨.exec, rfl, rfl⟩
  · exact .inl ⟨.writeReg, rfl, rfl⟩
  · exact .inl ⟨.setPair, rfl, rfl⟩
  · exact .inl ⟨.setFlags, rfl, rfl⟩
  · exact .inr ⟨.inl rfl, rfl⟩
  · exact .inr ⟨.inr (.inl rfl), rfl⟩
  · exact .inr ⟨.inr (.inr rfl), rfl⟩

/-- The seven register codes and 110 are all there is (R52). -/
theorem targetOf_cases (r : BitVec 3) :
    (∃ t, r = codeOf t ∧ targetOf r = some t) ∨ (r = 0b110#3 ∧ targetOf r = none) := by
  have h : r = 0 ∨ r = 1 ∨ r = 2 ∨ r = 3 ∨ r = 4 ∨ r = 5 ∨ r = 6 ∨ r = 7 := by bv_omega
  rcases h with rfl | rfl | rfl | rfl | rfl | rfl | rfl | rfl
  · exact .inl ⟨.b, rfl, rfl⟩
  · exact .inl ⟨.c, rfl, rfl⟩
  · exact .inl ⟨.d, rfl, rfl⟩
  · exact .inl ⟨.e, rfl, rfl⟩
  · exact .inl ⟨.h, rfl, rfl⟩
  · exact .inl ⟨.l, rfl, rfl⟩
  · exact .inr ⟨rfl, rfl⟩
  · exact .inl ⟨.a, rfl, rfl⟩

/-- The decoder has two answers, and `implemented` says which (R57). -/
theorem implemented_iff (w : PortWord) : implemented w = true ↔ ∃ i, decode w = .instr i := by
  unfold implemented
  cases decode w <;> simp

theorem not_implemented_iff (w : PortWord) : implemented w = false ↔ ∃ why, decode w = .unimplemented why := by
  unfold implemented
  cases decode w <;> simp

end Sys2Proof
end

