-- ==== Sys2Proof/Laws/Exec.lean ====
section
/-! SUPPORT. What running an instruction does, once: every meaning is the commit of Execute on its (family, target) pair
(40_register_file_ports.md R72, R73). -/

namespace Sys2Proof.Machine

/-- Every instruction runs, and commits what R73 gives for its pair. -/
theorem exec_eq_commit (i : Instr) (s : State) :
    exec i s = .next (s.commit (execute i.family i.target s)) := by
  cases i <;> rfl

/-- If an instruction answers a state, it is that commit. -/
theorem exec_next (i : Instr) (s t : State) (h : exec i s = .next t) :
    t = s.commit (execute i.family i.target s) := by
  rw [exec_eq_commit] at h
  exact (Host.Outcome.next.inj h).symm

/-- The destination of every family is R73's column. -/
@[simp] theorem execute_dest (f : Family) (t : Target) (s : State) : (execute f t s).dest = destOf f t := by
  cases f <;> rfl

/-- A commit to the accumulator, as an update of two fields. -/
theorem commit_toAccumulator (s : State) (v : Byte) (fl : Flags) :
    s.commit (toAccumulator v fl) = { s with a := v, f := fl } := rfl

/-- A commit with no destination, as an update of F. -/
theorem commit_flagsOnly (s : State) (v : Byte) (fl : Flags) :
    s.commit (flagsOnly v fl) = { s with f := fl } := rfl

/-! ## Exact results and bytes -/

theorem narrow_toNat (x : Int) : ((narrow x).toNat : Int) = x % 256 := by
  simp only [narrow, BitVec.toNat_ofInt]
  omega

theorem narrow_add (x y : Byte) : narrow (x.toNat + y.toNat : Nat) = x + y := by
  apply BitVec.eq_of_toNat_eq
  have h := narrow_toNat ((x.toNat + y.toNat : Nat) : Int)
  rw [BitVec.toNat_add]
  omega

theorem narrow_sub (x y : Byte) : narrow ((x.toNat : Int) - y.toNat) = x - y := by
  apply BitVec.eq_of_toNat_eq
  have h := narrow_toNat ((x.toNat : Int) - y.toNat)
  have hx := x.isLt
  have hy := y.isLt
  rw [BitVec.toNat_sub]
  omega

theorem lowNibble_toNat (x : Byte) : lowNibble x.toNat = (x &&& 0xF#8).toNat := by
  simp [lowNibble]

theorem lowNibble_eq_mod (n : Nat) : lowNibble n = n % 16 := Nat.and_two_pow_sub_one_eq_mod n 4

end Sys2Proof.Machine
end

