-- ==== Sys2Proof/Laws/Step.lean ====
section
/-! SUPPORT. What one edge can do, once (40_register_file_ports.md R70): the inversion lemmas every proof about a step cites. -/

namespace Sys2Proof.Machine

/-! ## The three priorities of an edge -/

theorem edge_of_rst (p : CycleInput) (s : State) (h : p.rst = true) : edge p s = .next s.applyReset := by
  simp [edge, h]

theorem edge_of_faulted (p : CycleInput) (s : State) (hr : p.rst = false) (h : s.faulted = true) :
    edge p s = .next s := by
  simp [edge, hr, h]

theorem edge_of_running (p : CycleInput) (s : State) (hr : p.rst = false) (h : s.faulted = false) :
    edge p s = runCommand p s := by
  simp [edge, hr, h]

/-! ## Where the input comes from -/

theorem step_of_cons (s : State) (p : CycleInput) (rest : List CycleInput) :
    step { s with inputs := p :: rest } = edge p { s with inputs := rest } := rfl

/-- The edge of a running block is its command. -/
theorem step_cons_of_running (s : State) (p : CycleInput) (rest : List CycleInput) (hr : p.rst = false)
    (hf : s.faulted = false) : step { s with inputs := p :: rest } = runCommand p { s with inputs := rest } :=
  edge_of_running p { s with inputs := rest } hr hf

theorem step_of_present (s : State) (p : CycleInput) : step (s.present p) = edge p s := rfl

theorem step_of_no_input (s : State) (h : s.inputs = []) : step s = edge idleInput s := by
  obtain ⟨⟩ := s
  simp only at h
  subst h
  rfl

@[simp] theorem execInput_rst (w : PortWord) : (execInput w).rst = false := rfl
@[simp] theorem execInput_cmd (w : PortWord) : (execInput w).cmd = commandCodeOf .exec := rfl
@[simp] theorem execInput_instr (w : PortWord) : (execInput w).instr = w := rfl
@[simp] theorem idleInput_rst : idleInput.rst = false := rfl
@[simp] theorem idleInput_cmd : idleInput.cmd = commandCodeOf .nop := rfl

/-! ## EXEC -/

theorem execWord_of_instr (w : PortWord) (s : State) (i : Instr) (h : decode w = .instr i) :
    execWord w s = exec i s := by
  simp [execWord, h]

theorem execWord_of_not_implemented (w : PortWord) (s : State) (h : implemented w = false) :
    execWord w s = .next (s.raiseUnimplemented w) := by
  obtain ⟨why, hw⟩ := (not_implemented_iff w).mp h
  simp [execWord, hw]

/-- EXEC always answers a state: the instruction's commit, or the fault entry (R72). -/
theorem execWord_next (w : PortWord) (s : State) :
    (∃ i, decode w = .instr i ∧ execWord w s = .next (s.commit (execute i.family i.target s))) ∨
    (implemented w = false ∧ execWord w s = .next (s.raiseUnimplemented w)) := by
  cases h : implemented w with
  | true =>
    obtain ⟨i, hi⟩ := (implemented_iff w).mp h
    exact .inl ⟨i, hi, by rw [execWord_of_instr w s i hi, exec_eq_commit]⟩
  | false => exact .inr ⟨rfl, execWord_of_not_implemented w s h⟩

/-! ## Everything a command and an edge can answer -/

/-- What the command of a running block can answer (R70). -/
theorem runCommand_cases (p : CycleInput) (s : State) :
    (commandOf p.cmd = some .nop ∧ runCommand p s = .next s) ∨
    (commandOf p.cmd = some .exec ∧ runCommand p s = execWord p.instr s) ∨
    (commandOf p.cmd = some .writeReg ∧
      ((∃ t, targetOf p.regSel = some t ∧ runCommand p s = .next (s.writeReg t (p.wdata.extractLsb' 0 8))) ∨
       (targetOf p.regSel = none ∧ runCommand p s = .refused .writeRegNoRegister))) ∨
    (commandOf p.cmd = some .setPair ∧ runCommand p s = .next (s.setPair (pairOf p.pairSel) p.wdata)) ∨
    (commandOf p.cmd = some .setFlags ∧
      runCommand p s = .next (s.writeFlags (Flags.unpack (p.wdata.extractLsb' 0 8)))) ∨
    (commandOf p.cmd = none ∧ runCommand p s = .refused (.reservedCommand p.cmd)) := by
  cases h : commandOf p.cmd with
  | none => simp [runCommand, h]
  | some k =>
    cases k with
    | nop => simp [runCommand, h, hostNop]
    | exec => simp [runCommand, h]
    | writeReg => cases ht : targetOf p.regSel <;> simp [runCommand, h, hostWriteReg, ht]
    | setPair => simp [runCommand, h, hostSetPair]
    | setFlags => simp [runCommand, h, hostSetFlags]

/-- What an edge that answers a state can have done. -/
theorem edge_next (p : CycleInput) (s t : State) (h : edge p s = .next t) :
    (p.rst = true ∧ t = s.applyReset) ∨
    (p.rst = false ∧ s.faulted = true ∧ t = s) ∨
    (p.rst = false ∧ s.faulted = false ∧ runCommand p s = .next t) := by
  cases hr : p.rst with
  | true => rw [edge_of_rst p s hr] at h; exact .inl ⟨rfl, (Host.Outcome.next.inj h).symm⟩
  | false =>
    cases hf : s.faulted with
    | true =>
      rw [edge_of_faulted p s hr hf] at h
      exact .inr (.inl ⟨rfl, rfl, (Host.Outcome.next.inj h).symm⟩)
    | false => rw [edge_of_running p s hr hf] at h; exact .inr (.inr ⟨rfl, rfl, h⟩)

/-- Every step consumes the input it sampled, and no other. -/
theorem edge_inputs (p : CycleInput) (s t : State) (h : edge p s = .next t) : t.inputs = s.inputs := by
  rcases edge_next p s t h with ⟨-, rfl⟩ | ⟨-, -, rfl⟩ | ⟨-, -, h⟩
  · rfl
  · rfl
  · rcases runCommand_cases p s with ⟨-, e⟩ | ⟨-, e⟩ | ⟨-, ⟨u, -, e⟩ | ⟨-, e⟩⟩ | ⟨-, e⟩ | ⟨-, e⟩ | ⟨-, e⟩ <;>
      rw [e] at h
    · exact congrArg State.inputs (Host.Outcome.next.inj h).symm
    · rcases execWord_next p.instr s with ⟨i, -, e⟩ | ⟨-, e⟩ <;> rw [e] at h <;>
        rw [← Host.Outcome.next.inj h] <;> simp
    · rw [← Host.Outcome.next.inj h]; simp
    · exact absurd h (by simp)
    · rw [← Host.Outcome.next.inj h]; simp
    · rw [← Host.Outcome.next.inj h]; simp
    · exact absurd h (by simp)

/-! ## Runs of the host's interface -/

theorem run_zero (s : State) : Sys2Proof.core.run 0 s = .next s := rfl

theorem run_succ_of_next (n : Nat) (s t : State) (h : step s = .next t) :
    Sys2Proof.core.run (n + 1) s = Sys2Proof.core.run n t := by
  have h' : Sys2Proof.core.step s = .next t := h
  simp only [Host.Core.run, h']

end Sys2Proof.Machine
end

