-- ==== Sys2Proof/Tests/Slice0.lean ====
section
/-! SUPPORT. The model's own tests. Expected values are the spec's: its encodings (30_encoding.md R53 to R55, R65), its
vectors (95_test_vectors.md, cited by id), its codes and its reset values. At the end, one witness for every statement of
Certificates/Slice0/Obligations.lean that has hypotheses. -/

namespace Sys2Proof.Tests
open Sys2Proof.Machine

/-! ## Ill-formed inputs are refused by the check (R75, R81), whatever else they hold -/

def writeRegInput (sel : BitVec 3) (v : Word) : CycleInput :=
  { idleInput with cmd := 0b010#3, regSel := sel, wdata := v }
def setPairInput (sel : BitVec 2) (v : Word) : CycleInput :=
  { idleInput with cmd := 0b011#3, pairSel := sel, wdata := v }
def setFlagsInput (v : Word) : CycleInput := { idleInput with cmd := 0b100#3, wdata := v }
def codeInput (cmd : BitVec 3) : CycleInput := { idleInput with cmd := cmd }
def resetInput : CycleInput := { execInput 0x080#9 with rst := true }

theorem test_wf_refuses_reserved_101 : (codeInput 0b101#3).wf = false := by decide
theorem test_wf_refuses_reserved_110 : (codeInput 0b110#3).wf = false := by decide
theorem test_wf_refuses_reserved_111 : (codeInput 0b111#3).wf = false := by decide
theorem test_wf_refuses_write_of_no_register : (writeRegInput 0b110#3 0x12#16).wf = false := by decide
theorem test_wf_accepts_the_named_codes :
    (writeRegInput 0b111#3 0x12#16).wf = true ∧ (codeInput 0b100#3).wf = true ∧
    ({ codeInput 0b101#3 with rst := true } : CycleInput).wf = true := by decide

/-! ## Every constructor's word, written out from R53, R54, R55 -/

theorem test_decode_add :
    decode 0b0_10_000_000#9 = .instr .addAB ∧
    decode 0b0_10_000_001#9 = .instr .addAC ∧
    decode 0b0_10_000_010#9 = .instr .addAD ∧
    decode 0b0_10_000_011#9 = .instr .addAE ∧
    decode 0b0_10_000_100#9 = .instr .addAH ∧
    decode 0b0_10_000_101#9 = .instr .addAL ∧
    decode 0b0_10_000_111#9 = .instr .addAA := by decide

theorem test_decode_adc :
    decode 0b0_10_001_000#9 = .instr .adcAB ∧
    decode 0b0_10_001_001#9 = .instr .adcAC ∧
    decode 0b0_10_001_010#9 = .instr .adcAD ∧
    decode 0b0_10_001_011#9 = .instr .adcAE ∧
    decode 0b0_10_001_100#9 = .instr .adcAH ∧
    decode 0b0_10_001_101#9 = .instr .adcAL ∧
    decode 0b0_10_001_111#9 = .instr .adcAA := by decide

theorem test_decode_sub :
    decode 0b0_10_010_000#9 = .instr .subB ∧
    decode 0b0_10_010_001#9 = .instr .subC ∧
    decode 0b0_10_010_010#9 = .instr .subD ∧
    decode 0b0_10_010_011#9 = .instr .subE ∧
    decode 0b0_10_010_100#9 = .instr .subH ∧
    decode 0b0_10_010_101#9 = .instr .subL ∧
    decode 0b0_10_010_111#9 = .instr .subA := by decide

theorem test_decode_sbc :
    decode 0b0_10_011_000#9 = .instr .sbcAB ∧
    decode 0b0_10_011_001#9 = .instr .sbcAC ∧
    decode 0b0_10_011_010#9 = .instr .sbcAD ∧
    decode 0b0_10_011_011#9 = .instr .sbcAE ∧
    decode 0b0_10_011_100#9 = .instr .sbcAH ∧
    decode 0b0_10_011_101#9 = .instr .sbcAL ∧
    decode 0b0_10_011_111#9 = .instr .sbcAA := by decide

theorem test_decode_and :
    decode 0b0_10_100_000#9 = .instr .andB ∧
    decode 0b0_10_100_001#9 = .instr .andC ∧
    decode 0b0_10_100_010#9 = .instr .andD ∧
    decode 0b0_10_100_011#9 = .instr .andE ∧
    decode 0b0_10_100_100#9 = .instr .andH ∧
    decode 0b0_10_100_101#9 = .instr .andL ∧
    decode 0b0_10_100_111#9 = .instr .andA := by decide

theorem test_decode_xor :
    decode 0b0_10_101_000#9 = .instr .xorB ∧
    decode 0b0_10_101_001#9 = .instr .xorC ∧
    decode 0b0_10_101_010#9 = .instr .xorD ∧
    decode 0b0_10_101_011#9 = .instr .xorE ∧
    decode 0b0_10_101_100#9 = .instr .xorH ∧
    decode 0b0_10_101_101#9 = .instr .xorL ∧
    decode 0b0_10_101_111#9 = .instr .xorA := by decide

theorem test_decode_or :
    decode 0b0_10_110_000#9 = .instr .orB ∧
    decode 0b0_10_110_001#9 = .instr .orC ∧
    decode 0b0_10_110_010#9 = .instr .orD ∧
    decode 0b0_10_110_011#9 = .instr .orE ∧
    decode 0b0_10_110_100#9 = .instr .orH ∧
    decode 0b0_10_110_101#9 = .instr .orL ∧
    decode 0b0_10_110_111#9 = .instr .orA := by decide

theorem test_decode_cp :
    decode 0b0_10_111_000#9 = .instr .cpB ∧
    decode 0b0_10_111_001#9 = .instr .cpC ∧
    decode 0b0_10_111_010#9 = .instr .cpD ∧
    decode 0b0_10_111_011#9 = .instr .cpE ∧
    decode 0b0_10_111_100#9 = .instr .cpH ∧
    decode 0b0_10_111_101#9 = .instr .cpL ∧
    decode 0b0_10_111_111#9 = .instr .cpA := by decide

theorem test_decode_inc :
    decode 0b0_00_000_10_0#9 = .instr .incB ∧
    decode 0b0_00_001_10_0#9 = .instr .incC ∧
    decode 0b0_00_010_10_0#9 = .instr .incD ∧
    decode 0b0_00_011_10_0#9 = .instr .incE ∧
    decode 0b0_00_100_10_0#9 = .instr .incH ∧
    decode 0b0_00_101_10_0#9 = .instr .incL ∧
    decode 0b0_00_111_10_0#9 = .instr .incA := by decide

theorem test_decode_dec :
    decode 0b0_00_000_10_1#9 = .instr .decB ∧
    decode 0b0_00_001_10_1#9 = .instr .decC ∧
    decode 0b0_00_010_10_1#9 = .instr .decD ∧
    decode 0b0_00_011_10_1#9 = .instr .decE ∧
    decode 0b0_00_100_10_1#9 = .instr .decH ∧
    decode 0b0_00_101_10_1#9 = .instr .decL ∧
    decode 0b0_00_111_10_1#9 = .instr .decA := by decide

theorem test_decode_swap :
    decode 0b1_00110_000#9 = .instr .swapB ∧
    decode 0b1_00110_001#9 = .instr .swapC ∧
    decode 0b1_00110_010#9 = .instr .swapD ∧
    decode 0b1_00110_011#9 = .instr .swapE ∧
    decode 0b1_00110_100#9 = .instr .swapH ∧
    decode 0b1_00110_101#9 = .instr .swapL ∧
    decode 0b1_00110_111#9 = .instr .swapA := by decide

/-- V-DEC-W-9 to V-DEC-W-18. -/
theorem test_decode_unimplemented :
    decode 0x086#9 = .unimplemented .memoryOperand ∧ decode 0x034#9 = .unimplemented .memoryOperand ∧
    decode 0x136#9 = .unimplemented .memoryOperand ∧ decode 0x030#9 = .unimplemented .outsideFamilies ∧
    decode 0x180#9 = .unimplemented .outsideFamilies ∧ decode 0x0C6#9 = .unimplemented .outsideFamilies ∧
    decode 0x000#9 = .unimplemented .outsideFamilies ∧ decode 0x076#9 = .unimplemented .outsideFamilies ∧
    decode 0x003#9 = .unimplemented .outsideFamilies ∧ decode 0x138#9 = .unimplemented .outsideFamilies := by decide

/-- Program bytes of P3 and P4 (95_test_vectors.md): B9, CB 37, 86; no byte, and 0xCB alone. -/
theorem test_program_bytes :
    decodeBytes [0xB9#8, 0xCB#8] = .instr .cpC [0xCB#8] ∧ decodeBytes [0xCB#8, 0x37#8, 0xB2#8] = .instr .swapA [0xB2#8] ∧
    decodeBytes [0x86#8] = .unimplemented .memoryOperand ∧ decodeBytes [] = .unimplemented .noBytes ∧
    decodeBytes [0xCB#8] = .unimplemented .cbAlone := by decide

/-- R63: the table's examples, and a spelling "an assembler also accepts". -/
theorem test_assemble :
    assemble "ADD A,B" = some .addAB ∧ assemble "SUB D" = some .subD ∧ assemble "SUB A,D" = some .subD ∧
    assemble "SWAP E" = some .swapE ∧ assemble "INC (HL)" = none := by decide

/-! ## Flags, pairs (95_test_vectors.md, V-PACK, V-FOLD) -/

theorem test_pack :
    Flags.pack ⟨true, false, false, false⟩ = 0x80#8 ∧ Flags.pack ⟨false, true, false, false⟩ = 0x40#8 ∧
    Flags.pack ⟨false, false, true, false⟩ = 0x20#8 ∧ Flags.pack ⟨false, false, false, true⟩ = 0x10#8 := by decide
theorem test_unpack :
    Flags.unpack 0x0F#8 = ⟨false, false, false, false⟩ ∧ Flags.unpack 0xA5#8 = ⟨true, false, true, false⟩ := by decide
theorem test_fold :
    fold 0x12#8 0x34#8 = 0x1234#16 ∧ unfoldHi 0xABCD#16 = 0xAB#8 ∧ unfoldLo 0xABCD#16 = 0xCD#8 := by decide

/-! ## One step of each family on the spec's vectors -/

/-- The start state of 95_test_vectors.md section 2: reset, then A, the operand register and F.c as shown. -/
def start (a : Byte) (t : Target) (v : Byte) (c : Bool) : State :=
  ((State.reset.writeFlags ⟨false, false, false, c⟩).writeReg .a a).writeReg t v

/-- One step that runs the port word leaves `v` in register `t` and the F byte `f`. -/
def leaves (s : State) (w : Nat) (t : Target) (v f : Byte) : Bool :=
  match step (s.withFetchWord 16 w) with
  | .next s' => s'.readReg t == v && s'.f.pack == f
  | _ => false

/-- V-ADD-1, V-ADD-2, V-ADD-4, V-ADD-5, V-ADD-6, V-ADD-7, V-ADD-8, V-ADD-9. -/
theorem test_step_add :
    leaves (start 0x0A#8 .b 0x05#8 false) 0x080 .a 0x0F#8 0x00#8 = true ∧
    leaves (start 0x0F#8 .b 0x01#8 false) 0x080 .a 0x10#8 0x20#8 = true ∧
    leaves (start 0x3A#8 .c 0xC6#8 false) 0x081 .a 0x00#8 0xB0#8 = true ∧
    leaves (start 0xF0#8 .d 0x10#8 true) 0x082 .a 0x00#8 0x90#8 = true ∧
    leaves (start 0x00#8 .e 0x00#8 true) 0x083 .a 0x00#8 0x80#8 = true ∧
    leaves (start 0x88#8 .a 0x88#8 false) 0x087 .a 0x10#8 0x30#8 = true ∧
    leaves (start 0x08#8 .l 0x08#8 false) 0x085 .a 0x10#8 0x20#8 = true ∧
    leaves (start 0xFF#8 .h 0xFF#8 false) 0x084 .a 0xFE#8 0x30#8 = true := by decide

/-- V-ADC-1, V-ADC-2, V-ADC-3, V-ADC-4, V-ADC-5, V-ADC-6, V-ADC-7, V-ADC-8. -/
theorem test_step_adc :
    leaves (start 0x0A#8 .b 0x05#8 true) 0x088 .a 0x10#8 0x00#8 = true ∧
    leaves (start 0x0F#8 .c 0x00#8 true) 0x089 .a 0x10#8 0x00#8 = true ∧
    leaves (start 0xFF#8 .d 0x00#8 true) 0x08A .a 0x00#8 0x90#8 = true ∧
    leaves (start 0xE1#8 .e 0x0F#8 true) 0x08B .a 0xF1#8 0x20#8 = true ∧
    leaves (start 0xFF#8 .h 0xFF#8 true) 0x08C .a 0xFF#8 0x30#8 = true ∧
    leaves (start 0x80#8 .l 0x80#8 false) 0x08D .a 0x00#8 0x90#8 = true ∧
    leaves (start 0x80#8 .a 0x80#8 true) 0x08F .a 0x01#8 0x10#8 = true ∧
    leaves (start 0x00#8 .b 0x00#8 false) 0x088 .a 0x00#8 0x80#8 = true := by decide

/-- V-SUB-1, V-SUB-2, V-SUB-3, V-SUB-4, V-SUB-5, V-SUB-6, V-SUB-7. -/
theorem test_step_sub :
    leaves (start 0x3E#8 .b 0x3E#8 false) 0x090 .a 0x00#8 0xC0#8 = true ∧
    leaves (start 0x3E#8 .c 0x0F#8 false) 0x091 .a 0x2F#8 0x60#8 = true ∧
    leaves (start 0x3E#8 .d 0x40#8 false) 0x092 .a 0xFE#8 0x50#8 = true ∧
    leaves (start 0x00#8 .e 0x01#8 true) 0x093 .a 0xFF#8 0x70#8 = true ∧
    leaves (start 0x5B#8 .a 0x5B#8 true) 0x097 .a 0x00#8 0xC0#8 = true ∧
    leaves (start 0x80#8 .h 0x7F#8 false) 0x094 .a 0x01#8 0x60#8 = true ∧
    leaves (start 0xFF#8 .l 0x00#8 false) 0x095 .a 0xFF#8 0x40#8 = true := by decide

/-- V-SBC-1, V-SBC-2, V-SBC-3, V-SBC-4, V-SBC-5, V-SBC-6, V-SBC-7, V-SBC-8, V-SBC-9. -/
theorem test_step_sbc :
    leaves (start 0x10#8 .b 0x05#8 true) 0x098 .a 0x0C#8 0x60#8 = true ∧
    leaves (start 0x10#8 .c 0x05#8 false) 0x099 .a 0x0B#8 0x60#8 = true ∧
    leaves (start 0x3B#8 .d 0x2A#8 true) 0x09A .a 0x12#8 0x40#8 = true ∧
    leaves (start 0x20#8 .e 0x00#8 true) 0x09B .a 0x21#8 0x50#8 = true ∧
    leaves (start 0xFF#8 .h 0x00#8 true) 0x09C .a 0x00#8 0xC0#8 = true ∧
    leaves (start 0x05#8 .l 0x06#8 true) 0x09D .a 0x00#8 0xE0#8 = true ∧
    leaves (start 0x04#8 .b 0x06#8 true) 0x098 .a 0xFF#8 0x70#8 = true ∧
    leaves (start 0x00#8 .a 0x00#8 true) 0x09F .a 0x01#8 0x50#8 = true ∧
    leaves (start 0x37#8 .a 0x37#8 true) 0x09F .a 0x01#8 0x40#8 = true := by decide

/-- V-AND-1, V-AND-2, V-AND-3, V-AND-4. -/
theorem test_step_and :
    leaves (start 0x5A#8 .b 0x3F#8 true) 0x0A0 .a 0x1A#8 0x20#8 = true ∧
    leaves (start 0xF0#8 .c 0x0F#8 false) 0x0A1 .a 0x00#8 0xA0#8 = true ∧
    leaves (start 0x00#8 .a 0x00#8 false) 0x0A7 .a 0x00#8 0xA0#8 = true ∧
    leaves (start 0xFF#8 .d 0xFF#8 false) 0x0A2 .a 0xFF#8 0x20#8 = true := by decide

/-- V-XOR-1, V-XOR-2, V-XOR-3, V-XOR-4. -/
theorem test_step_xor :
    leaves (start 0xFF#8 .d 0x0F#8 false) 0x0AA .a 0xF0#8 0x00#8 = true ∧
    leaves (start 0x5A#8 .a 0x5A#8 true) 0x0AF .a 0x00#8 0x80#8 = true ∧
    leaves (start 0x3C#8 .e 0xA5#8 false) 0x0AB .a 0x99#8 0x00#8 = true ∧
    leaves (start 0x42#8 .h 0x42#8 false) 0x0AC .a 0x00#8 0x80#8 = true := by decide

/-- V-OR-1, V-OR-2, V-OR-3. -/
theorem test_step_or :
    leaves (start 0x5A#8 .b 0x0F#8 true) 0x0B0 .a 0x5F#8 0x00#8 = true ∧
    leaves (start 0x00#8 .c 0x00#8 false) 0x0B1 .a 0x00#8 0x80#8 = true ∧
    leaves (start 0x80#8 .a 0x80#8 false) 0x0B7 .a 0x80#8 0x00#8 = true := by decide

/-- V-CP-1, V-CP-2, V-CP-3, V-CP-4, V-CP-5. -/
theorem test_step_cp :
    leaves (start 0x3C#8 .b 0x2F#8 false) 0x0B8 .a 0x3C#8 0x60#8 = true ∧
    leaves (start 0x3C#8 .c 0x3C#8 false) 0x0B9 .a 0x3C#8 0xC0#8 = true ∧
    leaves (start 0x3C#8 .d 0x40#8 false) 0x0BA .a 0x3C#8 0x50#8 = true ∧
    leaves (start 0x99#8 .a 0x99#8 true) 0x0BF .a 0x99#8 0xC0#8 = true ∧
    leaves (start 0x00#8 .e 0xFF#8 false) 0x0BB .a 0x00#8 0x70#8 = true := by decide

/-- V-INC-1, V-INC-2, V-INC-4, V-INC-5, V-INC-6, V-INC-7, V-INC-8. -/
theorem test_step_inc :
    leaves (start 0x0F#8 .a 0x0F#8 false) 0x03C .a 0x10#8 0x20#8 = true ∧
    leaves (start 0xFF#8 .a 0xFF#8 true) 0x03C .a 0x00#8 0xB0#8 = true ∧
    leaves (start 0x00#8 .b 0x0F#8 false) 0x004 .b 0x10#8 0x00#8 = true ∧
    leaves (start 0x0F#8 .b 0x20#8 true) 0x004 .b 0x21#8 0x30#8 = true ∧
    leaves (start 0x01#8 .c 0xFF#8 false) 0x00C .c 0x00#8 0x80#8 = true ∧
    leaves (start 0x3F#8 .d 0xFF#8 true) 0x014 .d 0x00#8 0xB0#8 = true ∧
    leaves (start 0x00#8 .l 0x7F#8 false) 0x02C .l 0x80#8 0x00#8 = true := by decide

/-- V-DEC-1, V-DEC-2, V-DEC-4, V-DEC-5, V-DEC-6, V-DEC-7, V-DEC-8. -/
theorem test_step_dec :
    leaves (start 0x10#8 .a 0x10#8 false) 0x03D .a 0x0F#8 0x60#8 = true ∧
    leaves (start 0x01#8 .a 0x01#8 true) 0x03D .a 0x00#8 0xD0#8 = true ∧
    leaves (start 0x05#8 .d 0x10#8 false) 0x015 .d 0x0F#8 0x40#8 = true ∧
    leaves (start 0x20#8 .d 0x05#8 true) 0x015 .d 0x04#8 0x70#8 = true ∧
    leaves (start 0x33#8 .e 0x00#8 false) 0x01D .e 0xFF#8 0x40#8 = true ∧
    leaves (start 0x33#8 .e 0x01#8 true) 0x01D .e 0x00#8 0xD0#8 = true ∧
    leaves (start 0x00#8 .h 0x80#8 true) 0x025 .h 0x7F#8 0x70#8 = true := by decide

/-- V-SWAP-1, V-SWAP-2, V-SWAP-3, V-SWAP-4, V-SWAP-5, V-SWAP-6. -/
theorem test_step_swap :
    leaves (start 0x00#8 .b 0xF0#8 false) 0x130 .b 0x0F#8 0x00#8 = true ∧
    leaves (start 0x00#8 .c 0x0F#8 false) 0x131 .c 0xF0#8 0x00#8 = true ∧
    leaves (start 0x00#8 .d 0x00#8 true) 0x132 .d 0x00#8 0x00#8 = true ∧
    leaves (start 0x00#8 .e 0xA5#8 false) 0x133 .e 0x5A#8 0x00#8 = true ∧
    leaves (start 0x12#8 .a 0x12#8 true) 0x137 .a 0x21#8 0x00#8 = true ∧
    leaves (start 0x00#8 .h 0x77#8 false) 0x134 .h 0x77#8 0x00#8 = true := by decide

/-! ## Host commands, fault, reset -/

/-- One step that presents `p` from the reset state shows `q` of the outputs. -/
def shows (p : CycleInput) (q : Outputs → Bool) : Bool :=
  match step (State.reset.present p) with
  | .next s' => q s'.outputs
  | _ => false

/-- V-HOST-2. -/
theorem test_set_flags : shows (setFlagsInput 0x005F#16) (fun o => o.f == 0x50#8 && o.af == 0x0050#16) = true := by decide
/-- V-HOST-3. -/
theorem test_set_pair_af : shows (setPairInput 0b11#2 0x12FF#16) (fun o => o.af == 0x12F0#16 && o.flagN) = true := by
  decide
/-- V-HOST-4, V-HOST-5, V-HOST-6. -/
theorem test_set_pair :
    shows (setPairInput 0b00#2 0xBEEF#16) (fun o => o.b == 0xBE#8 && o.c == 0xEF#8) = true ∧
    shows (setPairInput 0b01#2 0x0102#16) (fun o => o.d == 0x01#8 && o.e == 0x02#8) = true ∧
    shows (setPairInput 0b10#2 0xFF00#16) (fun o => o.h == 0xFF#8 && o.l == 0x00#8) = true := by decide
/-- V-HOST-7. -/
theorem test_write_reg : shows (writeRegInput 0b111#3 0xAB55#16) (fun o => o.a == 0x55#8 && o.f == 0x00#8) = true := by
  decide
/-- V-HOST-10, V-HOST-11. -/
theorem test_refusals :
    step (State.reset.present (writeRegInput 0b110#3 0#16)) = .refused .writeRegNoRegister ∧
    step (State.reset.present (codeInput 0b101#3)) = .refused (.reservedCommand 0b101#3) := ⟨rfl, rfl⟩
/-- V-FLT-4. -/
theorem test_fault :
    shows (execInput 0x1FF#9) (fun o => o.faulted && o.faultCause == 1#2 && o.faultInstr == 0x1FF#9) = true := by decide

/-- The block after V-FLT-1. -/
def faultedState : State := (start 0x42#8 .b 0x07#8 true).raiseUnimplemented 0x086#9

/-- V-FLT-2, one command of it, and V-FLT-3. -/
theorem test_sticky_and_reset :
    step (faultedState.present (writeRegInput 0b111#3 0#16)) = .next faultedState ∧
    step (faultedState.present resetInput) = .next State.reset := ⟨rfl, rfl⟩

/-! ## Witnesses: for every statement with hypotheses, a state and operands that meet them all, clause by clause -/

/-- A running block that is not the reset state. -/
def running : State := start 0xFF#8 .b 0x01#8 true

theorem witness_MemoryOperandWordsFault :
    running.faulted = false ∧ (execInput 0x136#9).rst = false ∧ (execInput 0x136#9).cmd = 0b001#3 ∧
    (execInput 0x136#9).instr ∈
      [0x086#9, 0x08E#9, 0x096#9, 0x09E#9, 0x0A6#9, 0x0AE#9, 0x0B6#9, 0x0BE#9, 0x034#9, 0x035#9, 0x136#9] := by decide
theorem witness_StepRunsDecodedInstruction :
    running.faulted = false ∧ (execInput 0x137#9).rst = false ∧ (execInput 0x137#9).cmd = 0b001#3 ∧
    decode (execInput 0x137#9).instr = .instr .swapA := by decide
theorem witness_FetchedWordRunsNext : running.faulted = false ∧ decodeTableWord 16 0x137 = some .swapA := by decide
theorem witness_NopChangesNothing : running.faulted = false ∧ idleInput.rst = false ∧ idleInput.cmd = 0b000#3 := by decide
theorem witness_NoInputIsIdle : running.inputs = [] ∧ faultedState.inputs = [] := by decide
theorem witness_WriteRegCommand :
    running.faulted = false ∧ (writeRegInput 0b111#3 0xAB55#16).rst = false ∧
    (writeRegInput 0b111#3 0xAB55#16).cmd = 0b010#3 ∧ (writeRegInput 0b111#3 0xAB55#16).regSel = codeOf .a := by decide
theorem witness_RegisterSelectCodes :
    running.faulted = false ∧ (writeRegInput 0b110#3 0#16).rst = false ∧ (writeRegInput 0b110#3 0#16).cmd = 0b010#3 ∧
    (writeRegInput 0b110#3 0#16).regSel = 0b110#3 := by decide
theorem witness_SetPairCommand :
    running.faulted = false ∧ (setPairInput 0b00#2 0xFFFF#16).rst = false ∧
    (setPairInput 0b00#2 0xFFFF#16).cmd = 0b011#3 ∧ (setPairInput 0b00#2 0xFFFF#16).pairSel = 0b00#2 ∧
    (setPairInput 0b01#2 0xFFFF#16).pairSel = 0b01#2 ∧ (setPairInput 0b10#2 0xFFFF#16).pairSel = 0b10#2 ∧
    (setPairInput 0b11#2 0xFFFF#16).pairSel = 0b11#2 := by decide
theorem witness_SetFlagsCommand :
    running.faulted = false ∧ (setFlagsInput 0x00B0#16).rst = false ∧ (setFlagsInput 0x00B0#16).cmd = 0b100#3 := by decide
theorem witness_ReservedCommandRefused :
    running.faulted = false ∧ (codeInput 0b101#3).rst = false ∧ (codeInput 0b101#3).cmd = 0b101#3 ∧
    (codeInput 0b110#3).cmd = 0b110#3 ∧ (codeInput 0b111#3).cmd = 0b111#3 := by decide
theorem witness_HostCommandsNeverFault :
    running.faulted = false ∧ (writeRegInput 0b101#3 0#16).rst = false ∧ (writeRegInput 0b101#3 0#16).cmd = 0b010#3 ∧
    (writeRegInput 0b101#3 0#16).regSel ≠ 0b110#3 ∧
    (setPairInput 0b11#2 0#16).cmd = 0b011#3 ∧ (setFlagsInput 0#16).cmd = 0b100#3 := by decide
/-- Two inputs of one command that differ in what it does not use: for SET_PAIR of AF, and for SET_FLAGS. -/
theorem witness_UnusedInputsDoNotMatter :
    let p := setPairInput 0b11#2 0x12F0#16
    let q : CycleInput := { setPairInput 0b11#2 0x12FF#16 with instr := 0x1FF#9, regSel := 0b110#3 }
    p ≠ q ∧ p.rst = q.rst ∧ p.cmd = q.cmd ∧ p.cmd ≠ 0b001#3 ∧ p.cmd ≠ 0b010#3 ∧ p.pairSel = q.pairSel ∧
    p.wdata.extractLsb' 4 12 = q.wdata.extractLsb' 4 12 ∧ p.pairSel = 0b11#2 ∧ p.cmd ≠ 0b100#3 := by decide
theorem witness_UnusedInputsDoNotMatter_flags :
    let p := setFlagsInput 0x00B0#16
    let q : CycleInput := { setFlagsInput 0xFFBF#16 with pairSel := 0b11#2 }
    p ≠ q ∧ p.rst = q.rst ∧ p.cmd = q.cmd ∧ p.cmd = 0b100#3 ∧
    p.wdata.extractLsb' 4 4 = q.wdata.extractLsb' 4 4 := by decide
theorem witness_UnusedInputsDoNotMatter_write :
    let p := writeRegInput 0b000#3 0x0055#16
    let q : CycleInput := { writeRegInput 0b000#3 0xFF55#16 with pairSel := 0b11#2 }
    p ≠ q ∧ p.rst = q.rst ∧ p.cmd = q.cmd ∧ p.cmd = 0b010#3 ∧ p.regSel = q.regSel ∧
    p.wdata.extractLsb' 0 8 = q.wdata.extractLsb' 0 8 := by decide
theorem witness_UnusedInputsDoNotMatter_exec :
    let p := execInput 0x080#9
    let q : CycleInput := { execInput 0x080#9 with wdata := 0xFFFF#16 }
    p ≠ q ∧ p.rst = q.rst ∧ p.cmd = q.cmd ∧ p.cmd = 0b001#3 ∧ p.instr = q.instr := by decide
theorem witness_RepeatedHostWriteChangesNothing :
    let p := setPairInput 0b11#2 0x12FF#16
    p.rst = false ∧ p.cmd = 0b011#3 ∧
    step { running with inputs := [p, p] } =
      .next { running with a := 0x12#8, f := ⟨true, true, true, true⟩, inputs := [p] } := ⟨rfl, rfl, rfl⟩
theorem witness_ExecSeesTheHostWrite :
    let p := writeRegInput 0b111#3 0x0080#16
    let q := execInput 0x087#9
    running.faulted = false ∧ p.rst = false ∧ p.cmd = 0b010#3 ∧ p.regSel = codeOf .a ∧
    p.wdata.extractLsb' 0 8 = 0x80#8 ∧ q.rst = false ∧ q.cmd = 0b001#3 ∧
    q.instr = encode (Instr.ofPair .add .a) := by decide
theorem witness_ExecSeesTheHostWrite_other :
    let p := writeRegInput 0b101#3 0x0080#16
    let q := execInput 0x085#9
    p.cmd = 0b010#3 ∧ p.regSel = codeOf .l ∧ p.wdata.extractLsb' 0 8 = 0x80#8 ∧ q.cmd = 0b001#3 ∧
    q.instr = encode (Instr.ofPair .add .l) := by decide
/-- One instruction of each family: the hypothesis of every result statement, on any state. -/
theorem witness_results :
    Instr.family .addAA = .add ∧ Instr.family .adcAB = .adc ∧ Instr.family .subL = .sub ∧ Instr.family .sbcAA = .sbc ∧
    Instr.family .cpE = .cp ∧ Instr.family .andH = .and ∧ Instr.family .orC = .or ∧ Instr.family .xorA = .xor ∧
    Instr.family .incA = .inc ∧ Instr.family .decD = .dec ∧ Instr.family .swapB = .swap := by decide
/-- SbcResult: the tmp of value 0x00 with the carry set is 0xFF (decision D3). -/
theorem witness_SbcResult :
    Instr.family .sbcAE = .sbc ∧
    0xFF#8 = running.readReg (Instr.target .sbcAE) - (if running.f.c then 1#8 else 0#8) := by decide
theorem witness_CarryFormsWithoutCarry : (start 0x10#8 .b 0x05#8 false).f.c = false := by decide
theorem witness_SbcWithCarryCorners :
    Instr.family .sbcAE = .sbc ∧ running.f.c = true ∧ running.readReg (Instr.target .sbcAE) = 0x00#8 := by decide
theorem witness_AdcACAfterAddABSeesItsCarry :
    let p := execInput 0x080#9
    let q := execInput 0x089#9
    running.faulted = false ∧ p.rst = false ∧ p.cmd = 0b001#3 ∧ p.instr = 0x080#9 ∧
    q.rst = false ∧ q.cmd = 0b001#3 ∧ q.instr = 0x089#9 := by decide
theorem witness_OnlyTheDestinationChanges :
    exec .incB running = .next { running with b := 0x02#8, f := ⟨false, false, true, true⟩ } ∧
    exec .cpB running = .next { running with f := ⟨false, true, false, false⟩ } ∧
    exec .addAB running = .next { running with a := 0x00#8, f := ⟨true, false, true, true⟩ } := ⟨rfl, rfl, rfl⟩
/-- Two states with the same registers and the same carry, and different other flags. -/
theorem witness_FlagsAreOverwrittenNotMerged :
    let s' := running.writeFlags ⟨true, true, true, true⟩
    running ≠ s' ∧ (∀ r ∈ Target.all, running.readReg r = s'.readReg r) ∧ running.f.c = s'.f.c ∧
    Instr.family .adcAB = .adc := by decide
theorem witness_EveryInstructionCompletesInItsCycle :
    running.faulted = false ∧ (execInput (encode .decA)).rst = false ∧ (execInput (encode .decA)).cmd = 0b001#3 ∧
    (execInput (encode .decA)).instr = encode .decA := by decide
/-- 0x000 and 0x1FF, the ends of the port word's range, are the words of no instruction. -/
theorem witness_UnimplementedWordTakesTheFault :
    running.faulted = false ∧ (execInput 0x1FF#9).rst = false ∧ (execInput 0x1FF#9).cmd = 0b001#3 ∧
    (∀ i ∈ Instr.all, encode i ≠ 0x1FF#9) ∧ (∀ i ∈ Instr.all, encode i ≠ 0x000#9) := by decide
theorem witness_every_instruction_is_listed (i : Instr) : i ∈ Instr.all := by cases i <;> decide
theorem witness_FaultIsSticky :
    faultedState.faulted = true ∧ (codeInput 0b111#3).rst = false ∧ resetInput.rst = true := by decide
theorem witness_FaultLastsUntilReset :
    faultedState.faulted = true ∧ ∀ p ∈ [codeInput 0b101#3, setFlagsInput 0xF0#16], p.rst = false := by decide
theorem witness_StepKeepsLatchCoherent :
    State.LatchCoherent running ∧ State.LatchCoherent faultedState ∧
    step (running.present (execInput 0x1FF#9)) = .next (running.raiseUnimplemented 0x1FF#9) :=
  ⟨.inl (by decide), .inr (by decide), rfl⟩
theorem witness_HarmlessInputsNeverStopTheBlock :
    running.faulted = false ∧
    ∀ p ∈ [resetInput, execInput 0x137#9, writeRegInput 0b111#3 0xFF#16, codeInput 0b000#3], harmless p = true := by
  decide
theorem witness_ResetEdgeFromAnyState : resetInput.rst = true := by decide
theorem witness_StateBeforeResetIsForgotten :
    let s := { running with inputs := [idleInput, resetInput] }
    let s' := { faultedState with inputs := [idleInput, resetInput] }
    s.inputs = s'.inputs ∧ s ≠ s' ∧ s.inputs[1]? = some resetInput ∧ resetInput.rst = true := by decide
theorem witness_StateBeforeResetIsForgotten_runs :
    Sys2Proof.core.run 2 { running with inputs := [idleInput, resetInput] } = .next State.reset ∧
    Sys2Proof.core.run 2 { faultedState with inputs := [idleInput, resetInput] } = .next State.reset := ⟨rfl, rfl⟩
theorem witness_SpellingsAssemble : "XOR A,A" ∈ Instr.spellings .xorA := by decide
theorem witness_DecodeEncodeAgree : decode 0x0AF#9 = .instr .xorA := by decide
theorem witness_ProgramBytesAgree : decodeBytes [0xCB#8, 0x30#8] = .instr .swapB [] := by decide

end Sys2Proof.Tests
end

/-! # Proofs for 10_state.md

The rules of the state's operations first (flag byte, pairs, commit, latch, reset edge), then the obligations, each a short
use of them. -/

namespace Sys2Proof.Machine

/-! ## The flag byte (R19 to R22) -/

theorem Flags.pack_getLsbD (f : Flags) :
    f.pack.getLsbD 7 = f.z ∧ f.pack.getLsbD 6 = f.n ∧ f.pack.getLsbD 5 = f.h ∧ f.pack.getLsbD 4 = f.c := by
  obtain ⟨z, n, h, c⟩ := f
  cases z <;> cases n <;> cases h <;> cases c <;> decide

theorem Flags.pack_lowNibble (f : Flags) : f.pack.extractLsb' 0 4 = 0#4 :=
  BitVec.extractLsb'_append_eq_right

@[simp] theorem Flags.unpack_pack (f : Flags) : Flags.unpack f.pack = f := by
  obtain ⟨hz, hn, hh, hc⟩ := f.pack_getLsbD
  simp only [Flags.unpack, hz, hn, hh, hc]

/-- A byte is its two nibbles. -/
theorem nibbles_append (b : Byte) : b.extractLsb' 4 4 ++ b.extractLsb' 0 4 = b :=
  (BitVec.extractLsb'_append_extractLsb'_eq_extractLsb' (len₂ := 4) rfl).trans BitVec.extractLsb'_eq_self

/-- Pack after Unpack keeps the high nibble and clears the low one (R21, R22). -/
theorem Flags.pack_unpack_eq_append (b : Byte) : (Flags.unpack b).pack = b.extractLsb' 4 4 ++ 0#4 := by
  obtain ⟨hz, hn, hh, hc⟩ := (Flags.unpack b).pack_getLsbD
  have hhi : (Flags.unpack b).pack.extractLsb' 4 4 = b.extractLsb' 4 4 := by
    refine BitVec.eq_of_getLsbD_eq fun k hk => ?_
    rw [BitVec.getLsbD_extractLsb', BitVec.getLsbD_extractLsb']
    congr 1
    interval_cases k
    exacts [hc, hh, hn, hz]
  rw [← hhi, ← Flags.pack_lowNibble (Flags.unpack b), nibbles_append]

@[simp] theorem Flags.pack_unpack (b : Byte) : (Flags.unpack b).pack = b &&& 0xF0#8 := by
  calc (Flags.unpack b).pack
    _ = (b.extractLsb' 4 4 ++ b.extractLsb' 0 4) &&& (0xF#4 ++ 0x0#4) := by
        rw [Flags.pack_unpack_eq_append, BitVec.and_append, BitVec.and_zero]
        exact congrArg (· ++ 0#4) BitVec.and_allOnes.symm
    _ = b &&& 0xF0#8 := by rw [nibbles_append]; rfl

theorem Flags.pack_unpack_eq_self_iff (b : Byte) : (Flags.unpack b).pack = b ↔ b.extractLsb' 0 4 = 0#4 := by
  rw [Flags.pack_unpack_eq_append, eq_comm]
  conv_lhs => lhs; rw [← nibbles_append b]
  exact BitVec.append_right_inj _

/-! ## fold and unfold (R26, R28) -/

theorem fold_eq_append (hi lo : Byte) : fold hi lo = hi ++ lo :=
  (BitVec.setWidth_append_eq_shiftLeft_setWidth_or (w'' := 16)).symm.trans (BitVec.setWidth_eq _)

theorem fold_toNat (hi lo : Byte) : (fold hi lo).toNat = hi.toNat * 256 + lo.toNat := by
  rw [fold_eq_append, BitVec.toNat_append, ← Nat.shiftLeft_add_eq_or_of_lt lo.isLt, Nat.shiftLeft_eq]

@[simp] theorem unfoldHi_fold (hi lo : Byte) : unfoldHi (fold hi lo) = hi := by
  rw [fold_eq_append]
  exact BitVec.extractLsb'_append_eq_left

@[simp] theorem unfoldLo_fold (hi lo : Byte) : unfoldLo (fold hi lo) = lo := by
  rw [fold_eq_append]
  exact BitVec.extractLsb'_append_eq_right

@[simp] theorem fold_unfold (v : Word) : fold (unfoldHi v) (unfoldLo v) = v := by
  rw [fold_eq_append]
  exact (BitVec.extractLsb'_append_extractLsb'_eq_extractLsb' rfl).trans BitVec.extractLsb'_eq_self

theorem unfoldLo_lowNibble (v : Word) : (unfoldLo v).extractLsb' 0 4 = v.extractLsb' 0 4 :=
  BitVec.extractLsb'_extractLsb'_of_le (by decide)

/-- Masking the low byte of a pair word, as a mask of the word. -/
theorem fold_unfoldHi_and (v : Word) : fold (unfoldHi v) (unfoldLo v &&& 0xF0#8) = v &&& 0xFFF0#16 := by
  calc fold (unfoldHi v) (unfoldLo v &&& 0xF0#8)
    _ = (unfoldHi v ++ unfoldLo v) &&& (0xFF#8 ++ 0xF0#8) := by
        rw [fold_eq_append, BitVec.and_append]
        exact congrArg (· ++ (unfoldLo v &&& 0xF0#8)) BitVec.and_allOnes.symm
    _ = v &&& 0xFFF0#16 := by rw [← fold_eq_append, fold_unfold]; rfl

theorem fold_eq_iff (lo : Byte) (v : Word) : fold (unfoldHi v) lo = v ↔ lo = unfoldLo v := by
  constructor
  · intro h
    rw [← h, unfoldLo_fold]
  · rintro rfl
    exact fold_unfold v

/-! ## Pairs (R25 to R28, R76) -/

section
variable (s : State) (v : Word)

theorem State.getPair_setPair_bc : (s.setPair .bc v).getPair .bc = v := fold_unfold v
theorem State.getPair_setPair_de : (s.setPair .de v).getPair .de = v := fold_unfold v
theorem State.getPair_setPair_hl : (s.setPair .hl v).getPair .hl = v := fold_unfold v
theorem State.getPair_setPair_af :
    (s.setPair .af v).getPair .af = fold (unfoldHi v) (Flags.unpack (unfoldLo v)).pack := rfl

theorem State.getPair_setPair_af_eq_and : (s.setPair .af v).getPair .af = v &&& 0xFFF0#16 := by
  rw [State.getPair_setPair_af, Flags.pack_unpack, fold_unfoldHi_and]

theorem State.getPair_setPair_af_eq_self_iff :
    (s.setPair .af v).getPair .af = v ↔ v.extractLsb' 0 4 = 0#4 := by
  rw [State.getPair_setPair_af, fold_eq_iff, Flags.pack_unpack_eq_self_iff, unfoldLo_lowNibble]

end

/-- Unpack of a pair word's low byte takes the word's bits 7 to 4. -/
theorem Flags.unpack_unfoldLo (v : Word) :
    Flags.unpack (unfoldLo v) = ⟨v.getLsbD 7, v.getLsbD 6, v.getLsbD 5, v.getLsbD 4⟩ := by
  simp [Flags.unpack, unfoldLo]

/-! ## What an instruction commits (R16, R23, R24, R73) -/

/-- An instruction changes no register other than its destination. -/
theorem readReg_of_exec_next {i : Instr} {s t : State} (h : exec i s = .next t) {r : Target}
    (hr : destOf i.family i.target ≠ some r) : t.readReg r = s.readReg r := by
  rw [exec_next i s t h, State.readReg_commit, execute_dest, if_neg hr]

/-- The fields an instruction never touches: the fault fields and the pending inputs. -/
theorem exec_next_frame {i : Instr} {s t : State} (h : exec i s = .next t) :
    t.faulted = s.faulted ∧ t.faultCause = s.faultCause ∧ t.faultInstr = s.faultInstr ∧ t.inputs = s.inputs := by
  rw [exec_next i s t h]
  simp

section
variable {s s' : State} (hreg : ∀ r, s.readReg r = s'.readReg r)
include hreg

theorem State.accumulator_congr : s.accumulator = s'.accumulator := congrArg BitVec.toNat (hreg .a)

theorem State.operand_congr (t : Target) : s.operand t = s'.operand t := congrArg BitVec.toNat (hreg t)

/-- Execute reads the registers and, in the four families that take carry_in or keep the carry, F.c; nothing else. -/
theorem execute_congr (f : Family) (t : Target)
    (hc : f = .adc ∨ f = .sbc ∨ f = .inc ∨ f = .dec → s.f.c = s'.f.c) : execute f t s = execute f t s' := by
  have ha := State.accumulator_congr hreg
  have ho := State.operand_congr hreg t
  cases f with
  | add => simp only [execute, aluAdd, ha, ho]
  | adc => simp only [execute, aluAdc, State.carryIn, ha, ho, hc (by decide)]
  | sub => simp only [execute, aluSub, ha, ho]
  | sbc => simp only [execute, aluSbc, State.carryIn, ha, ho, hc (by decide)]
  | cp => simp only [execute, aluCp, ha, ho]
  | and => simp only [execute, aluAnd, hreg]
  | or => simp only [execute, aluOr, hreg]
  | xor => simp only [execute, aluXor, hreg]
  | inc => simp only [execute, aluInc, ha, ho, hc (by decide)]
  | dec => simp only [execute, aluDec, ha, ho, hc (by decide)]
  | swap => simp only [execute, aluSwap, hreg]

end

theorem execute_flags_c_of_incDec {f : Family} (t : Target) (s : State) (hf : f = .inc ∨ f = .dec) :
    (execute f t s).flags.c = s.f.c := by
  obtain rfl | rfl := hf <;> rfl

theorem execute_flags_n (f : Family) (t : Target) (s : State) :
    (execute f t s).flags.n = decide (f = .sub ∨ f = .sbc ∨ f = .cp ∨ f = .dec) := by
  cases f <;> rfl

theorem execute_flags_h_of_and (t : Target) (s : State) : (execute .and t s).flags.h = true := rfl

theorem execute_flags_h_of_orXorSwap {f : Family} (t : Target) (s : State) (hf : f = .or ∨ f = .xor ∨ f = .swap) :
    (execute f t s).flags.h = false := by
  obtain rfl | rfl | rfl := hf <;> rfl

theorem execute_flags_c_of_logicSwap {f : Family} (t : Target) (s : State)
    (hf : f = .and ∨ f = .or ∨ f = .xor ∨ f = .swap) : (execute f t s).flags.c = false := by
  obtain rfl | rfl | rfl | rfl := hf <;> rfl

theorem execute_flags_z_of_swap (t : Target) (s : State) : (execute .swap t s).flags.z = false := rfl

/-! ## The fault latch (R32, R99, R103) -/

/-- Coherence is about the three latch fields alone. -/
theorem State.latchCoherent_congr {s t : State} (hf : t.faulted = s.faulted) (hc : t.faultCause = s.faultCause)
    (hi : t.faultInstr = s.faultInstr) : t.LatchCoherent ↔ s.LatchCoherent := by
  simp [State.LatchCoherent, hf, hc, hi]

theorem State.latchCoherent_reset : State.reset.LatchCoherent := .inl ⟨rfl, rfl, rfl⟩

theorem State.latchCoherent_applyReset (s : State) : s.applyReset.LatchCoherent := .inl ⟨rfl, rfl, rfl⟩

/-- The fault entry of a word no instruction has leaves a coherent latch, whatever stood there (R99). -/
theorem State.latchCoherent_raise (s : State) {w : PortWord} (h : implemented w = false) :
    (s.raiseUnimplemented w).LatchCoherent := .inr ⟨rfl, rfl, h⟩

/-- A command of a running block leaves the latch alone, or is the fault entry of an unimplemented word. -/
theorem runCommand_latch {p : CycleInput} {s t : State} (h : runCommand p s = .next t) :
    (t.faulted = s.faulted ∧ t.faultCause = s.faultCause ∧ t.faultInstr = s.faultInstr) ∨
    (implemented p.instr = false ∧ t = s.raiseUnimplemented p.instr) := by
  obtain ⟨-, e⟩ | ⟨-, e⟩ | ⟨-, ⟨u, -, e⟩ | ⟨-, e⟩⟩ | ⟨-, e⟩ | ⟨-, e⟩ | ⟨-, e⟩ := runCommand_cases p s <;>
    rw [e] at h
  · cases h
    exact .inl ⟨rfl, rfl, rfl⟩
  · obtain ⟨i, -, e⟩ | ⟨hw, e⟩ := execWord_next p.instr s <;> rw [e] at h <;> cases h
    · exact .inl (by simp)
    · exact .inr ⟨hw, rfl⟩
  · cases h
    exact .inl (by simp)
  · cases h
  · cases h
    exact .inl (by simp)
  · cases h
    exact .inl (by simp)
  · cases h

theorem edge_keeps_latchCoherent {p : CycleInput} {s t : State} (hs : s.LatchCoherent) (h : edge p s = .next t) :
    t.LatchCoherent := by
  obtain ⟨-, rfl⟩ | ⟨-, -, rfl⟩ | ⟨-, -, h⟩ := edge_next p s t h
  · exact s.latchCoherent_applyReset
  · exact hs
  · obtain ⟨hf, hc, hi⟩ | ⟨hw, rfl⟩ := runCommand_latch h
    · exact (State.latchCoherent_congr hf hc hi).mpr hs
    · exact s.latchCoherent_raise hw

theorem State.latchCoherent_dropInput (s : State) : s.dropInput.LatchCoherent ↔ s.LatchCoherent :=
  State.latchCoherent_congr rfl rfl rfl

/-! ## Runs and the reset edge (R35, R117, R119) -/

/-- A step uses up the first pending input. -/
theorem step_next_inputs {s t : State} (h : step s = .next t) : t.inputs = s.inputs.tail :=
  edge_inputs _ _ _ h

/-- A run that answers a state has taken its first step, and goes on from there. -/
theorem run_succ_next {n : Nat} {s t : State} (h : Sys2Proof.core.run (n + 1) s = .next t) :
    ∃ u, step s = .next u ∧ Sys2Proof.core.run n u = .next t := by
  cases hs : step s with
  | next u => exact ⟨u, rfl, run_succ_of_next n s u hs ▸ h⟩
  | fault r => nomatch r
  | refused r =>
    have hs' : Sys2Proof.core.step s = .refused r := hs
    simp only [Host.Core.run, hs'] at h
    cases h

/-- Only the pending inputs survive a reset edge (R117). -/
theorem step_of_reset_input {s : State} {p : CycleInput} (hp : s.inputs[0]? = some p) (hr : p.rst = true) :
    step s = .next { State.reset with inputs := s.inputs.tail } := by
  have hnext : s.nextInput = p := by
    rw [State.nextInput, List.headD_eq_head?_getD, List.head?_eq_getElem?, hp, Option.getD_some]
  rw [step, hnext, edge_of_rst p _ hr]
  rfl

/-- Two runs with equal inputs, past a reset edge, answer the same state: by induction on the number of edges, the reset
edge being the first (both runs meet there) or a later one. -/
theorem run_eq_of_reset_edge {n k : Nat} {s s' t t' : State} {p : CycleInput} (hin : s.inputs = s'.inputs) (hk : k < n)
    (hp : s.inputs[k]? = some p) (hr : p.rst = true) (h : Sys2Proof.core.run n s = .next t)
    (h' : Sys2Proof.core.run n s' = .next t') : t = t' := by
  induction n generalizing k s s' with
  | zero => exact absurd hk (Nat.not_lt_zero k)
  | succ n ih =>
    obtain ⟨u, hu, hrun⟩ := run_succ_next h
    obtain ⟨u', hu', hrun'⟩ := run_succ_next h'
    cases k with
    | zero =>
      have hmeet : step s = step s' := by
        rw [step_of_reset_input hp hr, step_of_reset_input (hin ▸ hp) hr, hin]
      have huu : u = u' := Host.Outcome.next.inj (hu.symm.trans (hmeet.trans hu'))
      exact Host.Outcome.next.inj (hrun.symm.trans (huu ▸ hrun'))
    | succ k =>
      have htail : u.inputs = u'.inputs := by rw [step_next_inputs hu, step_next_inputs hu', hin]
      have hpu : u.inputs[k]? = some p := by rw [step_next_inputs hu, List.getElem?_tail, hp]
      exact ih htail (Nat.lt_of_succ_lt_succ hk) hpu hrun hrun'

/-! ## The obligations -/

/-- Settles O54: what a command does to the latch (`runCommand_latch`), under the priorities of an edge. -/
theorem stepKeepsLatchCoherent : Obligations.StepKeepsLatchCoherent := fun s _t hs h =>
  edge_keeps_latchCoherent (s.latchCoherent_dropInput.mpr hs) h

/-- Settles O4: fold is concatenation, and AF loses the nibble that Unpack ignores. -/
theorem pairReadAfterWrite : Obligations.PairReadAfterWrite :=
  ⟨fun hi lo => ⟨unfoldHi_fold hi lo, unfoldLo_fold hi lo⟩, fold_unfold, fun s v =>
    ⟨s.getPair_setPair_bc v, s.getPair_setPair_de v, s.getPair_setPair_hl v, s.getPair_setPair_af_eq_and v,
      s.getPair_setPair_af_eq_self_iff v⟩⟩

/-- Settles O45: every instruction is the commit of its pair, and R73's column says where it writes. -/
theorem onlyTheDestinationChanges : Obligations.OnlyTheDestinationChanges := by
  intro i s t h
  have hframe : ∀ r, destOf i.family i.target ≠ some r → t.readReg r = s.readReg r := fun r =>
    readReg_of_exec_next h
  refine ⟨fun hf r hr => hframe r ?_, fun hf r => hframe r ?_, fun hf r hr => hframe r ?_, exec_next_frame h⟩
  · obtain hf | hf | hf | hf | hf | hf | hf := hf <;> simpa [hf, destOf] using hr.symm
  · simp [hf, destOf]
  · obtain hf | hf | hf := hf <;> simpa [hf, destOf] using hr.symm

/-- Settles O46: Execute answers the same in both states (`execute_congr`), so both commit the same. -/
theorem flagsAreOverwrittenNotMerged : Obligations.FlagsAreOverwrittenNotMerged := by
  intro i s s' hreg hc
  refine ⟨_, _, exec_eq_commit i s, exec_eq_commit i s', ?_, fun r => ?_, fun hf => ?_⟩
  · simp only [State.commit_f, execute_congr hreg i.family i.target hc]
  · simp only [State.readReg_commit, execute_congr hreg i.family i.target hc, hreg]
  · rw [State.commit_f, execute_flags_c_of_incDec i.target s hf]

/-- Settles O47: the flags committed are Execute's, read off family by family. -/
theorem constantFlagsOfEveryFamily : Obligations.ConstantFlagsOfEveryFamily := by
  intro i s
  refine ⟨_, exec_eq_commit i s, ?_⟩
  rw [State.commit_f]
  exact ⟨by rw [execute_flags_n, decide_eq_true_iff],
    fun hf => hf ▸ execute_flags_h_of_and i.target s,
    execute_flags_h_of_orXorSwap i.target s,
    execute_flags_c_of_logicSwap i.target s,
    fun hf => hf ▸ execute_flags_z_of_swap i.target s⟩

/-- Settles O57, by induction on the number of edges: the runs meet at the reset edge. -/
theorem stateBeforeResetIsForgotten : Obligations.StateBeforeResetIsForgotten :=
  fun _ _ _ _ _ _ _ hin hk hp hr h h' => run_eq_of_reset_edge hin hk hp hr h h'

/-- Settles O1. -/
theorem flagByteLayout : Obligations.FlagByteLayout := by
  refine ⟨fun f => ?_, fun _ => rfl⟩
  obtain ⟨hz, hn, hh, hc⟩ := f.pack_getLsbD
  exact ⟨hz, hn, hh, hc, f.pack_lowNibble⟩

/-- Settles O2: Pack after Unpack is the high nibble with a zero nibble after it. -/
theorem flagByteRoundTrip : Obligations.FlagByteRoundTrip :=
  ⟨Flags.unpack_pack, Flags.pack_unpack, Flags.pack_unpack_eq_self_iff⟩

/-- Settles O3: the numeric value of fold, for each pair. -/
theorem pairsFoldHighByteFirst : Obligations.PairsFoldHighByteFirst := fun _ =>
  ⟨fold_toNat _ _, fold_toNat _ _, fold_toNat _ _, fold_toNat _ _⟩

/-- Settles O6. -/
theorem resetStateIsAllZero : Obligations.ResetStateIsAllZero :=
  ⟨fun t => by cases t <;> rfl, rfl, rfl, fun p => by cases p <;> rfl, rfl, rfl, rfl⟩

/-- Settles O18: the edge of a running block is its command, here `setPair` of the coded pair. -/
theorem setPairCommand : Obligations.SetPairCommand := by
  intro s p rest hf hr hcmd
  have hstep : step { s with inputs := p :: rest } =
      .next (({ s with inputs := rest } : State).setPair (pairOf p.pairSel) p.wdata) := by
    rw [step_cons_of_running s p rest hr hf, runCommand, hcmd]
    rfl
  refine ⟨fun hsel => ?_, fun hsel => ?_, fun hsel => ?_, fun hsel => ?_⟩ <;> rw [hstep, hsel]
  case refine_4 => rw [← Flags.unpack_unfoldLo]; rfl
  all_goals rfl

/-- Settles O53: the first disjunct, field by field. -/
theorem latchCoherentAtReset : Obligations.LatchCoherentAtReset := State.latchCoherent_reset

end Sys2Proof.Machine

/-! # Proofs for 20_memory.md

A host write repeated at the next edge (R45): the write rules of the register file, then the three host commands, then the
edge and the step. -/

namespace Sys2Proof.Machine

/-! ## A second write to the same place -/

section
variable (s : State) (t : Target) (u v : Byte) (fl fl' : Flags) (p : Pair) (x y : Word) (l : List CycleInput)

@[simp] theorem State.writeReg_writeReg_self : (s.writeReg t u).writeReg t v = s.writeReg t v := by cases t <;> rfl
@[simp] theorem State.writeFlags_writeFlags : (s.writeFlags fl).writeFlags fl' = s.writeFlags fl' := rfl
@[simp] theorem State.setPair_setPair_self : (s.setPair p x).setPair p y = s.setPair p y := by cases p <;> rfl

/-! ## Writes do not look at the pending inputs -/

theorem State.writeReg_withInputs :
    State.writeReg { s with inputs := l } t v = { s.writeReg t v with inputs := l } := by cases t <;> rfl
theorem State.writeFlags_withInputs :
    State.writeFlags { s with inputs := l } fl = { s.writeFlags fl with inputs := l } := rfl
theorem State.setPair_withInputs :
    State.setPair { s with inputs := l } p x = { s.setPair p x with inputs := l } := by cases p <;> rfl

end

/-! ## The host commands by their codes (R68) -/

section
variable {p : CycleInput} (s : State)

theorem runCommand_of_writeReg (hcmd : p.cmd = 0b010#3) : runCommand p s = hostWriteReg p.regSel p.wdata s := by
  rw [runCommand, hcmd]
  rfl

theorem runCommand_of_setPair (hcmd : p.cmd = 0b011#3) : runCommand p s = hostSetPair p.pairSel p.wdata s := by
  rw [runCommand, hcmd]
  rfl

theorem runCommand_of_setFlags (hcmd : p.cmd = 0b100#3) : runCommand p s = hostSetFlags p.wdata s := by
  rw [runCommand, hcmd]
  rfl

end

/-- A WRITE_REG that answers a state names a register, and writes it (R74, R75). -/
theorem hostWriteReg_next {sel : BitVec 3} {x : Word} {s t : State} (h : hostWriteReg sel x s = .next t) :
    ∃ r, targetOf sel = some r ∧ t = s.writeReg r (x.extractLsb' 0 8) := by
  cases hsel : targetOf sel with
  | none => simp [hostWriteReg, hsel] at h
  | some r =>
    simp only [hostWriteReg, hsel] at h
    exact ⟨r, rfl, (Host.Outcome.next.inj h).symm⟩

/-! ## The same host write again -/

section
variable {s t : State} (l : List CycleInput)

theorem hostWriteReg_again {sel : BitVec 3} {x : Word} (h : hostWriteReg sel x s = .next t) :
    hostWriteReg sel x { t with inputs := l } = .next { t with inputs := l } := by
  obtain ⟨r, hsel, rfl⟩ := hostWriteReg_next h
  simp only [hostWriteReg, hsel, State.writeReg_withInputs, State.writeReg_writeReg_self]

theorem hostSetPair_again {sel : BitVec 2} {x : Word} (h : hostSetPair sel x s = .next t) :
    hostSetPair sel x { t with inputs := l } = .next { t with inputs := l } := by
  cases h
  rw [hostSetPair, State.setPair_withInputs, State.setPair_setPair_self]

theorem hostSetFlags_again {x : Word} (h : hostSetFlags x s = .next t) :
    hostSetFlags x { t with inputs := l } = .next { t with inputs := l } := by
  cases h
  rw [hostSetFlags, State.writeFlags_withInputs, State.writeFlags_writeFlags]

variable {p : CycleInput} (hcmd : p.cmd = 0b010#3 ∨ p.cmd = 0b011#3 ∨ p.cmd = 0b100#3)
include hcmd

theorem runCommand_again_of_hostWrite (h : runCommand p s = .next t) :
    runCommand p { t with inputs := l } = .next { t with inputs := l } := by
  obtain hcmd | hcmd | hcmd := hcmd
  · rw [runCommand_of_writeReg _ hcmd] at h ⊢
    exact hostWriteReg_again l h
  · rw [runCommand_of_setPair _ hcmd] at h ⊢
    exact hostSetPair_again l h
  · rw [runCommand_of_setFlags _ hcmd] at h ⊢
    exact hostSetFlags_again l h

/-- A faulted block ignores both writes; a running one takes the second where the first left it. -/
theorem edge_again_of_hostWrite (hr : p.rst = false) (h : edge p s = .next t) :
    edge p { t with inputs := l } = .next { t with inputs := l } := by
  obtain ⟨hrst, -⟩ | ⟨-, hf, rfl⟩ | ⟨-, -, hrun⟩ := edge_next p s t h
  · exact absurd hrst (by simp [hr])
  · exact edge_of_faulted p _ hr hf
  · obtain hf | hf := Bool.eq_false_or_eq_true t.faulted
    · exact edge_of_faulted p _ hr hf
    · rw [edge_of_running p { t with inputs := l } hr hf]
      exact runCommand_again_of_hostWrite l hcmd hrun

end

/-! ## The obligation -/

/-- Settles O24: the second edge samples the same input (`step_next_inputs`), and finds its write already made. -/
theorem repeatedHostWriteChangesNothing : Obligations.RepeatedHostWriteChangesNothing := by
  intro s s' p rest hr hcmd h
  have hin : s'.inputs = p :: rest := step_next_inputs h
  calc step s'
    _ = step { s' with inputs := p :: rest } := by rw [← hin]
    _ = edge p { s' with inputs := rest } := step_of_cons s' p rest
    _ = .next { s' with inputs := rest } := edge_again_of_hostWrite rest hcmd hr h

end Sys2Proof.Machine

/-! # Proofs for 30_encoding.md

Port words as cb bit and op byte, the opcode byte of each format, the decoder format by format; from these that decode
and encode are inverse. Then program bytes, the count of implemented words, spellings and the memory-operand words. -/

namespace Sys2Proof

/-! ## A port word is its cb bit and its op byte (R50) -/

/-- The port word of an opcode byte that stands alone. -/
def plainWord (op : Byte) : PortWord := 0#1 ++ op

/-- The port word of an opcode byte after 0xCB. -/
def prefixedWord (op : Byte) : PortWord := 1#1 ++ op

section
variable (op : Byte)

theorem plainWord_op : (plainWord op).extractLsb' 0 8 = op := BitVec.extractLsb'_append_eq_right
theorem prefixedWord_op : (prefixedWord op).extractLsb' 0 8 = op := BitVec.extractLsb'_append_eq_right

theorem plainWord_cb : (plainWord op).getLsbD 8 = false := by
  rw [plainWord, BitVec.getLsbD_append]
  rfl

theorem prefixedWord_cb : (prefixedWord op).getLsbD 8 = true := by
  rw [prefixedWord, BitVec.getLsbD_append]
  rfl

end

theorem portWord_cases (w : PortWord) : (∃ op, w = plainWord op) ∨ ∃ op, w = prefixedWord op := by
  have hw : w.extractLsb' 8 1 ++ w.extractLsb' 0 8 = w :=
    (BitVec.extractLsb'_append_extractLsb'_eq_extractLsb' rfl).trans BitVec.extractLsb'_eq_self
  obtain hcb | hcb := BitVec.eq_zero_or_eq_one (w.extractLsb' 8 1)
  · exact .inl ⟨_, by rw [plainWord, ← hcb, hw]⟩
  · exact .inr ⟨_, by rw [prefixedWord, ← hcb, hw]⟩

/-! ## The opcode byte of each format, with the target code left open (R53 to R55) -/

/-- The op byte of format ALU8 on any target code, 110 too (R53). -/
def alu8Op (fff r : BitVec 3) : Byte := 0b10#2 ++ fff ++ r

/-- The op byte of format INCDEC on any target code, 110 too (R54). -/
def incDecOp (d : BitVec 1) (r : BitVec 3) : Byte := 0b00#2 ++ r ++ 0b10#2 ++ d

/-- The op byte of format CB on any target code, 110 too (R55). -/
def swapOp (r : BitVec 3) : Byte := 0b00110#5 ++ r

/-- The family of an INCDEC word's d field (R54). -/
def incDecFamilyOf (d : BitVec 1) : Family := if d = 1#1 then .dec else .inc

theorem encodePair_aluFamilyOf (fff : BitVec 3) (t : Target) :
    encodePair (aluFamilyOf fff) t = plainWord (alu8Op fff (codeOf t)) := by
  cases t <;> decide +revert

theorem encodePair_incDecFamilyOf (d : BitVec 1) (t : Target) :
    encodePair (incDecFamilyOf d) t = plainWord (incDecOp d (codeOf t)) := by
  cases t <;> decide +revert

theorem encodePair_swap (t : Target) : encodePair .swap t = prefixedWord (swapOp (codeOf t)) := by
  cases t <;> rfl

/-- Every family is named by a field code of its format, or is the one of format CB. -/
theorem family_cases (f : Family) : (∃ fff, f = aluFamilyOf fff) ∨ (∃ d, f = incDecFamilyOf d) ∨ f = .swap := by
  cases f
  case inc => exact .inr (.inl ⟨0, rfl⟩)
  case dec => exact .inr (.inl ⟨1, rfl⟩)
  case swap => exact .inr (.inr rfl)
  all_goals left
  exacts [⟨0, rfl⟩, ⟨1, rfl⟩, ⟨2, rfl⟩, ⟨3, rfl⟩, ⟨4, rfl⟩, ⟨6, rfl⟩, ⟨5, rfl⟩, ⟨7, rfl⟩]

/-! A byte with the constant fields of a format is that format's byte on its other fields. -/

section
variable {op : Byte}

theorem alu8Op_fields (h : op.extractLsb' 6 2 = 0b10#2) :
    alu8Op (op.extractLsb' 3 3) (op.extractLsb' 0 3) = op := by
  have hhi : op.extractLsb' 6 2 ++ op.extractLsb' 3 3 = op.extractLsb' 3 5 :=
    BitVec.extractLsb'_append_extractLsb'_eq_extractLsb' rfl
  rw [alu8Op, ← h, hhi]
  exact BitVec.extractLsb'_append_extractLsb' (w := 5)

theorem incDecOp_fields (hhi : op.extractLsb' 6 2 = 0b00#2) (hlo : op.extractLsb' 1 2 = 0b10#2) :
    incDecOp (op.extractLsb' 0 1) (op.extractLsb' 3 3) = op := by
  have h3 : op.extractLsb' 6 2 ++ op.extractLsb' 3 3 = op.extractLsb' 3 5 :=
    BitVec.extractLsb'_append_extractLsb'_eq_extractLsb' rfl
  have h1 : op.extractLsb' 3 5 ++ op.extractLsb' 1 2 = op.extractLsb' 1 7 :=
    BitVec.extractLsb'_append_extractLsb'_eq_extractLsb' rfl
  rw [incDecOp, ← hhi, ← hlo, h3, h1]
  exact BitVec.extractLsb'_append_extractLsb' (w := 7)

theorem swapOp_fields (h : op.extractLsb' 3 5 = 0b00110#5) : swapOp (op.extractLsb' 0 3) = op := by
  rw [swapOp, ← h]
  exact BitVec.extractLsb'_append_extractLsb' (w := 5)

end

/-! ## The decoder, format by format (R56) -/

theorem codeOf_injective : Function.Injective codeOf := fun t u h =>
  Option.some.inj (by rw [← targetOf_codeOf t, h, targetOf_codeOf])

theorem withTarget_eq_pair_iff {f g : Family} {r : BitVec 3} {t : Target} :
    withTarget f r = .pair g t ↔ f = g ∧ r = codeOf t := by
  obtain ⟨u, rfl, -⟩ | ⟨rfl, hnone⟩ := targetOf_cases r
  · simp [withTarget, codeOf_injective.eq_iff]
  · have hcode : 0b110#3 ≠ codeOf t := by cases t <;> decide
    simp [withTarget, hnone, hcode]

theorem withTarget_codeOf (f : Family) (t : Target) : withTarget f (codeOf t) = .pair f t :=
  withTarget_eq_pair_iff.mpr ⟨rfl, rfl⟩

theorem decodePair_plainWord (op : Byte) :
    decodePair (plainWord op) =
      if op.extractLsb' 6 2 = 0b10#2 then withTarget (aluFamilyOf (op.extractLsb' 3 3)) (op.extractLsb' 0 3)
      else if op.extractLsb' 6 2 = 0b00#2 ∧ op.extractLsb' 1 2 = 0b10#2 then
        withTarget (incDecFamilyOf (op.extractLsb' 0 1)) (op.extractLsb' 3 3)
      else .unimplemented .outsideFamilies := by
  have hd : op.getLsbD 0 = true ↔ op.extractLsb' 0 1 = 1#1 := by rw [BitVec.getLsbD_eq_extractLsb', beq_iff_eq]
  simp only [decodePair, plainWord_cb, plainWord_op, incDecFamilyOf, hd, true_and, false_and, if_false,
    Bool.false_eq_true]

theorem decodePair_prefixedWord (op : Byte) :
    decodePair (prefixedWord op) =
      if op.extractLsb' 3 5 = 0b00110#5 then withTarget .swap (op.extractLsb' 0 3)
      else .unimplemented .outsideFamilies := by
  simp only [decodePair, prefixedWord_cb, prefixedWord_op, true_and, false_and, if_false, Bool.true_eq_false]

theorem decodePair_alu8Op (fff r : BitVec 3) :
    decodePair (plainWord (alu8Op fff r)) = withTarget (aluFamilyOf fff) r := by
  decide +revert

theorem decodePair_incDecOp (d : BitVec 1) (r : BitVec 3) :
    decodePair (plainWord (incDecOp d r)) = withTarget (incDecFamilyOf d) r := by
  decide +revert

theorem decodePair_swapOp (r : BitVec 3) : decodePair (prefixedWord (swapOp r)) = withTarget .swap r := by
  decide +revert

/-! ## Decode and encode are inverse (R56, R57) -/

theorem decodePair_encodePair (f : Family) (t : Target) : decodePair (encodePair f t) = .pair f t := by
  obtain ⟨fff, rfl⟩ | ⟨d, rfl⟩ | rfl := family_cases f
  · rw [encodePair_aluFamilyOf, decodePair_alu8Op, withTarget_codeOf]
  · rw [encodePair_incDecFamilyOf, decodePair_incDecOp, withTarget_codeOf]
  · rw [encodePair_swap, decodePair_swapOp, withTarget_codeOf]

/-- The branches of R56, each read backwards: its tests fix the constant fields of its format. -/
theorem encodePair_of_decodePair {w : PortWord} {f : Family} {t : Target} (h : decodePair w = .pair f t) :
    encodePair f t = w := by
  obtain ⟨op, rfl⟩ | ⟨op, rfl⟩ := portWord_cases w
  · rw [decodePair_plainWord] at h
    split_ifs at h with halu hincDec
    · obtain ⟨rfl, hr⟩ := withTarget_eq_pair_iff.mp h
      rw [encodePair_aluFamilyOf, ← hr, alu8Op_fields halu]
    · obtain ⟨rfl, hr⟩ := withTarget_eq_pair_iff.mp h
      obtain ⟨hhi, hlo⟩ := hincDec
      rw [encodePair_incDecFamilyOf, ← hr, incDecOp_fields hhi hlo]
  · rw [decodePair_prefixedWord] at h
    split_ifs at h with hswap
    obtain ⟨rfl, hr⟩ := withTarget_eq_pair_iff.mp h
    rw [encodePair_swap, ← hr, swapOp_fields hswap]

theorem Instr.ofPair_family_target (i : Instr) : Instr.ofPair i.family i.target = i := by cases i <;> rfl

theorem decode_encode (i : Instr) : decode (encode i) = .instr i := by
  rw [decode, encode, decodePair_encodePair]
  exact congrArg Decoded.instr i.ofPair_family_target

theorem decode_eq_instr_iff {w : PortWord} {i : Instr} : decode w = .instr i ↔ encode i = w := by
  refine ⟨fun h => ?_, fun h => h ▸ decode_encode i⟩
  cases hw : decodePair w with
  | unimplemented why => simp [decode, hw] at h
  | pair f t =>
    obtain rfl : Instr.ofPair f t = i := by simpa [decode, hw] using h
    rw [encode, Instr.family_ofPair, Instr.target_ofPair, encodePair_of_decodePair hw]

theorem encode_injective : Function.Injective encode := fun i j h =>
  Decoded.instr.inj (by rw [← decode_encode i, h, decode_encode])

theorem implemented_iff_exists_encode (w : PortWord) : implemented w = true ↔ ∃ i, encode i = w := by
  simp only [implemented_iff, decode_eq_instr_iff]

/-! ## Program bytes (R51) -/

theorem setWidth_eq_plainWord (op : Byte) : op.setWidth 9 = plainWord op := BitVec.setWidth_eq_append (by decide)

theorem or_setWidth_eq_prefixedWord (op : Byte) : 0x100#9 ||| op.setWidth 9 = prefixedWord op := by
  rw [← BitVec.setWidth_eq (prefixedWord op), prefixedWord]
  exact (BitVec.setWidth_append_eq_shiftLeft_setWidth_or (w'' := 9) (b := 1#1) (b' := op)).symm

theorem bytesOfPortWord_plainWord (op : Byte) : bytesOfPortWord (plainWord op) = [op] := by
  rw [bytesOfPortWord, plainWord_cb, plainWord_op]
  rfl

theorem bytesOfPortWord_prefixedWord (op : Byte) : bytesOfPortWord (prefixedWord op) = [Config.cbByte, op] := by
  rw [bytesOfPortWord, prefixedWord_cb, prefixedWord_op]
  rfl

/-- The byte after 0xCB is the op of a prefixed word. -/
theorem portWordOfBytes_cbByte_cons (op : Byte) (rest : List Byte) :
    portWordOfBytes (Config.cbByte :: op :: rest) = some (prefixedWord op, rest) := by
  rw [portWordOfBytes, if_pos rfl, or_setWidth_eq_prefixedWord]

/-- Any other first byte is the op of a plain word. -/
theorem portWordOfBytes_cons {op : Byte} (hop : op ≠ Config.cbByte) (rest : List Byte) :
    portWordOfBytes (op :: rest) = some (plainWord op, rest) := by
  rw [portWordOfBytes.eq_def]
  simp only [if_neg hop, setWidth_eq_plainWord]

/-- A port word is read back from its bytes, but for the one whose only byte is 0xCB. -/
theorem portWordOfBytes_bytesOfPortWord {w : PortWord} (hw : w ≠ plainWord Config.cbByte) (rest : List Byte) :
    portWordOfBytes (bytesOfPortWord w ++ rest) = some (w, rest) := by
  obtain ⟨op, rfl⟩ | ⟨op, rfl⟩ := portWord_cases w
  · rw [bytesOfPortWord_plainWord]
    exact portWordOfBytes_cons (fun h => hw (congrArg plainWord h)) rest
  · rw [bytesOfPortWord_prefixedWord]
    exact portWordOfBytes_cbByte_cons op rest

theorem eq_append_of_portWordOfBytes {bs rest : List Byte} {w : PortWord}
    (h : portWordOfBytes bs = some (w, rest)) : bs = bytesOfPortWord w ++ rest := by
  match bs with
  | [] => cases h
  | op :: tl =>
    by_cases hop : op = Config.cbByte
    · subst hop
      match tl with
      | [] => cases h
      | op' :: tl' =>
        cases (portWordOfBytes_cbByte_cons op' tl').symm.trans h
        rw [bytesOfPortWord_prefixedWord, List.cons_append, List.singleton_append]
    · cases (portWordOfBytes_cons hop tl).symm.trans h
      rw [bytesOfPortWord_plainWord, List.singleton_append]

theorem decodeBytes_eq_instr_iff {bs rest : List Byte} {i : Instr} :
    decodeBytes bs = .instr i rest ↔ portWordOfBytes bs = some (encode i, rest) := by
  cases hbs : portWordOfBytes bs with
  | none => simp [decodeBytes, hbs]
  | some p =>
    obtain ⟨w, tl⟩ := p
    cases hw : decode w with
    | instr j =>
      obtain rfl := decode_eq_instr_iff.mp hw
      simp [decodeBytes, hbs, hw, encode_injective.eq_iff]
    | unimplemented why =>
      have hne : w ≠ encode i := fun h => by simp [h, decode_encode] at hw
      simp [decodeBytes, hbs, hw, hne]

/-- 0xCB is the opcode of no instruction, so no instruction's bytes are misread. -/
theorem encode_ne_plainWord_cbByte (i : Instr) : encode i ≠ plainWord Config.cbByte := fun h => by
  have hcb : decode (plainWord Config.cbByte) = .unimplemented .outsideFamilies := rfl
  cases hcb.symm.trans (decode_eq_instr_iff.mpr h)

/-! ## The list of all instructions (R57) -/

theorem Instr.all_eq_map : Instr.all = (Family.all ×ˢ Target.all).map fun p => Instr.ofPair p.1 p.2 := rfl

theorem Instr.ofPair_injective : Function.Injective fun p : Family × Target => Instr.ofPair p.1 p.2 :=
  fun _ _ h => Prod.ext (by simpa using congrArg Instr.family h) (by simpa using congrArg Instr.target h)

theorem mem_instr_all (i : Instr) : i ∈ Instr.all :=
  Instr.all_eq_map ▸ List.mem_map.mpr ⟨(i.family, i.target),
    List.mem_product.mpr ⟨mem_family_all i.family, mem_target_all i.target⟩, i.ofPair_family_target⟩

theorem nodup_instr_all : Instr.all.Nodup :=
  (List.Nodup.product (by decide : Family.all.Nodup) (by decide : Target.all.Nodup)).map Instr.ofPair_injective

/-- The implemented words are the encodings of the instructions, each once. -/
theorem implementedWords_perm :
    ((List.range 512).filter fun n => implemented (BitVec.ofNat 9 n)).Perm
      (Instr.all.map fun i => (encode i).toNat) := by
  have hinj : Function.Injective fun i => (encode i).toNat := fun _ _ h =>
    encode_injective (BitVec.eq_of_toNat_eq h)
  refine (List.perm_ext_iff_of_nodup (List.nodup_range.filter _) (nodup_instr_all.map hinj)).mpr fun n => ?_
  simp only [List.mem_filter, List.mem_range, implemented_iff_exists_encode, List.mem_map, mem_instr_all, true_and]
  constructor
  · rintro ⟨hn, i, hi⟩
    exact ⟨i, by rw [hi, BitVec.toNat_ofNat, Nat.mod_eq_of_lt hn]⟩
  · rintro ⟨i, rfl⟩
    exact ⟨(encode i).isLt, i, by rw [BitVec.ofNat_toNat, BitVec.setWidth_eq]⟩

/-! ## Spellings (R63): the mnemonic before the first space and the last letter tell the instruction -/

/-- What stands before the first space of a line. -/
def lineMnemonic (line : String) : List Char := line.toList.takeWhile (· != ' ')

/-- The last character of a line. -/
def lineRegister (line : String) : Option Char := line.toList.getLast?

theorem Family.mnemonic_injective : Function.Injective fun f : Family => f.mnemonic.toList := fun f g =>
  List.inj_on_of_nodup_map (f := fun f => f.mnemonic.toList) (by decide) (mem_family_all f) (mem_family_all g)

theorem Target.name_injective : Function.Injective fun t : Target => t.name.toList.getLast? := fun t u =>
  List.inj_on_of_nodup_map (f := fun t => t.name.toList.getLast?) (by decide) (mem_target_all t) (mem_target_all u)

theorem mem_spellings_of_assemble {i : Instr} {line : String} (h : assemble line = some i) : line ∈ i.spellings := by
  rw [assemble] at h
  simpa using List.find?_some h

section
variable {i j : Instr} {line : String} (h : line ∈ i.spellings)
include h

theorem toList_of_mem_spellings :
    ∃ acc : List Char, line.toList = i.family.mnemonic.toList ++ ' ' :: acc ++ i.target.name.toList := by
  have hsub : i.spellings ⊆
      [i.family.mnemonic ++ " " ++ i.target.name, i.family.mnemonic ++ " A," ++ i.target.name] := by
    unfold Instr.spellings
    split <;> simp
  obtain rfl | rfl := List.mem_pair.mp (hsub h)
  · exact ⟨[], by simp⟩
  · exact ⟨['A', ','], by simp⟩

theorem lineMnemonic_of_mem_spellings : lineMnemonic line = i.family.mnemonic.toList := by
  obtain ⟨acc, hline⟩ := toList_of_mem_spellings h
  have hspace : ∀ c ∈ i.family.mnemonic.toList, (c != ' ') = true := by cases i.family <;> simp [Family.mnemonic]
  simp [lineMnemonic, hline, List.takeWhile_append_of_pos hspace]

theorem lineRegister_of_mem_spellings : lineRegister line = i.target.name.toList.getLast? := by
  obtain ⟨acc, hline⟩ := toList_of_mem_spellings h
  have hname : i.target.name.toList ≠ [] := by cases i.target <;> decide
  rw [lineRegister, hline, List.getLast?_append_of_ne_nil _ hname]

theorem eq_of_mem_spellings (hj : line ∈ j.spellings) : i = j := by
  have hf : i.family = j.family := Family.mnemonic_injective
    ((lineMnemonic_of_mem_spellings h).symm.trans (lineMnemonic_of_mem_spellings hj))
  have ht : i.target = j.target := Target.name_injective
    ((lineRegister_of_mem_spellings h).symm.trans (lineRegister_of_mem_spellings hj))
  rw [← i.ofPair_family_target, hf, ht, j.ofPair_family_target]

theorem assemble_of_mem_spellings : assemble line = some i := by
  cases hfind : assemble line with
  | none => simpa [h] using List.find?_eq_none.mp hfind i (mem_instr_all i)
  | some k => rw [eq_of_mem_spellings h (mem_spellings_of_assemble hfind)]

end

/-! ## The memory-operand words (R58) -/

theorem decode_of_target110 {w : PortWord} {f : Family} (h : decodePair w = withTarget f 0b110#3) :
    decode w = .unimplemented .memoryOperand := by
  rw [decode, h]
  rfl

/-- R58's words are the words of each format with target code 110: eight, two and one. -/
theorem memoryOperandWords_eq :
    [0x086#9, 0x08E#9, 0x096#9, 0x09E#9, 0x0A6#9, 0x0AE#9, 0x0B6#9, 0x0BE#9, 0x034#9, 0x035#9, 0x136#9] =
      [0, 1, 2, 3, 4, 5, 6, 7].map (fun fff => plainWord (alu8Op fff 0b110#3)) ++
      [0, 1].map (fun d => plainWord (incDecOp d 0b110#3)) ++ [prefixedWord (swapOp 0b110#3)] := rfl

theorem decode_memoryOperandWord {w : PortWord}
    (h : w ∈ [0x086#9, 0x08E#9, 0x096#9, 0x09E#9, 0x0A6#9, 0x0AE#9, 0x0B6#9, 0x0BE#9, 0x034#9, 0x035#9, 0x136#9]) :
    decode w = .unimplemented .memoryOperand := by
  simp only [memoryOperandWords_eq, List.mem_append, List.mem_map, List.mem_singleton] at h
  obtain (⟨fff, -, rfl⟩ | ⟨d, -, rfl⟩) | rfl := h
  · exact decode_of_target110 (decodePair_alu8Op fff _)
  · exact decode_of_target110 (decodePair_incDecOp d _)
  · exact decode_of_target110 (decodePair_swapOp _)

end Sys2Proof

namespace Sys2Proof.Machine

theorem runCommand_of_exec {p : CycleInput} (s : State) (hcmd : p.cmd = 0b001#3) :
    runCommand p s = execWord p.instr s := by
  rw [runCommand, hcmd]
  rfl

/-! ## The obligations -/

/-- Settles O8: no branch of the decoder drops a bit (`decode_eq_instr_iff`). -/
theorem decodeEncodeAgree : Obligations.DecodeEncodeAgree :=
  ⟨decode_encode, fun _ _ => decode_eq_instr_iff.mp⟩

/-- Settles O9: the bytes give the word back, since no instruction's only byte is 0xCB. -/
theorem programBytesAgree : Obligations.ProgramBytesAgree :=
  ⟨fun i rest => decodeBytes_eq_instr_iff.mpr
      (portWordOfBytes_bytesOfPortWord (encode_ne_plainWord_cbByte i) rest),
    fun _ _ _ h => eq_append_of_portWordOfBytes (decodeBytes_eq_instr_iff.mp h)⟩

/-- Settles O7: the eleven decoded words are encodings, written out. -/
theorem sampleWordsDecode : Obligations.SampleWordsDecode :=
  ⟨decode_encode .addAB, decode_encode .adcAA, decode_encode .subL, decode_encode .sbcAE, decode_encode .andH,
    decode_encode .xorD, decode_encode .orC, decode_encode .cpA, decode_encode .incA, decode_encode .decL,
    decode_encode .swapB, rfl, rfl, rfl, rfl, rfl, rfl⟩

/-- Settles O10: the implemented words are as many as the instructions. -/
theorem seventySevenWordsAreImplemented : Obligations.SeventySevenWordsAreImplemented :=
  implementedWords_perm.length_eq.trans (List.length_map _)

/-- Settles O11: the edge of a running block is its command, here EXEC of a word that is not implemented. -/
theorem memoryOperandWordsFault : Obligations.MemoryOperandWordsFault := by
  intro s p rest hf hr hcmd hmem
  have hdec := decode_memoryOperandWord hmem
  refine ⟨hdec, ?_⟩
  rw [step_cons_of_running s p rest hr hf, runCommand_of_exec _ hcmd,
    execWord_of_not_implemented _ _ ((not_implemented_iff _).mpr ⟨_, hdec⟩)]
  rfl

/-- Settles O58: the line assembles to some instruction, and a line spells only one. -/
theorem spellingsAssemble : Obligations.SpellingsAssemble := fun _ _ => assemble_of_mem_spellings

end Sys2Proof.Machine

/-! # Proofs for 40_register_file_ports.md

The commands of a running block by their codes, what a step answers for each of them, when a step is refused, and which
input bits a command reads; from these the obligations. -/

namespace Sys2Proof.Machine

@[simp] theorem State.readReg_withInputs (s : State) (l : List CycleInput) (t : Target) :
    State.readReg { s with inputs := l } t = s.readReg t := by cases t <;> rfl

/-! ## The commands by their codes (R68, R75, R81) -/

section
variable {p : CycleInput} (s : State)

theorem runCommand_of_nop (hcmd : p.cmd = 0b000#3) : runCommand p s = .next s := by
  rw [runCommand, hcmd]
  rfl

theorem runCommand_of_reserved (hcmd : p.cmd = 0b101#3 ∨ p.cmd = 0b110#3 ∨ p.cmd = 0b111#3) :
    runCommand p s = .refused (.reservedCommand p.cmd) := by
  have hnone : commandOf p.cmd = none := by obtain h | h | h := hcmd <;> rw [h] <;> rfl
  rw [runCommand, hnone]

theorem hostWriteReg_codeOf (t : Target) (x : Word) :
    hostWriteReg (codeOf t) x s = .next (s.writeReg t (x.extractLsb' 0 8)) := by
  rw [hostWriteReg, targetOf_codeOf]

/-- The one code that names no register (R75). -/
theorem hostWriteReg_noRegister (x : Word) : hostWriteReg 0b110#3 x s = .refused .writeRegNoRegister := rfl

end

/-! ## The step of a running block, command by command (R70) -/

section
variable {s : State} {p : CycleInput} (rest : List CycleInput) (hf : s.faulted = false) (hr : p.rst = false)
include hf hr

theorem step_of_exec {i : Instr} (hcmd : p.cmd = 0b001#3) (hdec : decode p.instr = .instr i) :
    step { s with inputs := p :: rest } = exec i { s with inputs := rest } := by
  rw [step_cons_of_running s p rest hr hf, runCommand_of_exec _ hcmd, execWord_of_instr _ _ i hdec]

theorem step_of_writeReg {t : Target} (hcmd : p.cmd = 0b010#3) (hsel : p.regSel = codeOf t) :
    step { s with inputs := p :: rest } =
      .next (State.writeReg { s with inputs := rest } t (p.wdata.extractLsb' 0 8)) := by
  rw [step_cons_of_running s p rest hr hf, runCommand_of_writeReg _ hcmd, hsel, hostWriteReg_codeOf]

theorem step_of_writeReg_noRegister (hcmd : p.cmd = 0b010#3) (hsel : p.regSel = 0b110#3) :
    step { s with inputs := p :: rest } = .refused .writeRegNoRegister := by
  rw [step_cons_of_running s p rest hr hf, runCommand_of_writeReg _ hcmd, hsel, hostWriteReg_noRegister]

theorem step_of_setPair (hcmd : p.cmd = 0b011#3) :
    step { s with inputs := p :: rest } =
      .next (State.setPair { s with inputs := rest } (pairOf p.pairSel) p.wdata) := by
  rw [step_cons_of_running s p rest hr hf, runCommand_of_setPair _ hcmd, hostSetPair]

theorem step_of_setFlags (hcmd : p.cmd = 0b100#3) :
    step { s with inputs := p :: rest } =
      .next (State.writeFlags { s with inputs := rest } (Flags.unpack (unfoldLo p.wdata))) := by
  rw [step_cons_of_running s p rest hr hf, runCommand_of_setFlags _ hcmd]
  rfl

theorem step_of_reserved (hcmd : p.cmd = 0b101#3 ∨ p.cmd = 0b110#3 ∨ p.cmd = 0b111#3) :
    step { s with inputs := p :: rest } = .refused (.reservedCommand p.cmd) := by
  rw [step_cons_of_running s p rest hr hf, runCommand_of_reserved _ hcmd]

end

/-! ## Refusals (R70, R75, R81) -/

/-- A run whose first step is refused is refused, however long. -/
theorem run_succ_of_refused (n : Nat) {s : State} {r : Refusal} (h : step s = .refused r) :
    Sys2Proof.core.run (n + 1) s = .refused r := by
  have h' : Sys2Proof.core.step s = .refused r := h
  simp only [Host.Core.run, h']

theorem execWord_ne_refused (w : PortWord) (s : State) (r : Refusal) : execWord w s ≠ .refused r := by
  obtain ⟨i, -, e⟩ | ⟨-, e⟩ := execWord_next w s <;> simp [e]

theorem hostWriteReg_eq_refused_iff {sel : BitVec 3} {x : Word} {s : State} {r : Refusal} :
    hostWriteReg sel x s = .refused r ↔ sel = 0b110#3 ∧ r = .writeRegNoRegister := by
  obtain ⟨t, rfl, -⟩ | ⟨rfl, -⟩ := targetOf_cases sel
  · have hcode : codeOf t ≠ 0b110#3 := by cases t <;> decide
    simp [hostWriteReg_codeOf, hcode]
  · simp [hostWriteReg_noRegister, eq_comm]

/-- The two commands without a meaning: a reserved code, and WRITE_REG of no register. -/
theorem runCommand_eq_refused_iff {p : CycleInput} {s : State} {r : Refusal} :
    runCommand p s = .refused r ↔
      ((p.cmd = 0b101#3 ∨ p.cmd = 0b110#3 ∨ p.cmd = 0b111#3) ∧ r = .reservedCommand p.cmd) ∨
      (p.cmd = 0b010#3 ∧ p.regSel = 0b110#3 ∧ r = .writeRegNoRegister) := by
  obtain ⟨k, hcmd, -⟩ | ⟨hcmd, -⟩ := commandOf_cases p.cmd
  · cases k with
    | nop => simp [runCommand_of_nop s hcmd, hcmd, commandCodeOf]
    | exec => simp [runCommand_of_exec s hcmd, execWord_ne_refused, hcmd, commandCodeOf]
    | writeReg => simp [runCommand_of_writeReg s hcmd, hostWriteReg_eq_refused_iff, hcmd, commandCodeOf]
    | setPair => simp [runCommand_of_setPair s hcmd, hostSetPair, hcmd, commandCodeOf]
    | setFlags => simp [runCommand_of_setFlags s hcmd, hostSetFlags, hcmd, commandCodeOf]
  · have hwrite : p.cmd ≠ 0b010#3 := by obtain h | h | h := hcmd <;> rw [h] <;> decide
    simp [runCommand_of_reserved s hcmd, hcmd, hwrite, eq_comm]

/-- Only the command of a running block can be refused. -/
theorem edge_eq_refused_iff {p : CycleInput} {s : State} {r : Refusal} :
    edge p s = .refused r ↔ s.faulted = false ∧ p.rst = false ∧ runCommand p s = .refused r := by
  cases hr : p.rst with
  | true => simp [edge_of_rst p s hr]
  | false =>
    cases hf : s.faulted with
    | true => simp [edge_of_faulted p s hr hf]
    | false => simp [edge_of_running p s hr hf]

/-! ## The input bits a command reads (R74, R76, R78, R84) -/

section
variable {x y : Word}

theorem getLsbD_congr_of_extractLsb' {start len : Nat} (h : x.extractLsb' start len = y.extractLsb' start len) {i : Nat}
    (hi : i < len) : x.getLsbD (start + i) = y.getLsbD (start + i) := by
  simpa [hi] using congrArg (BitVec.getLsbD · i) h

/-- Words that agree on a range of bits agree on every part of it. -/
theorem extractLsb'_congr_part {start len : Nat} (h : x.extractLsb' start len = y.extractLsb' start len)
    (off part : Nat) (hle : off + part ≤ len) :
    x.extractLsb' (start + off) part = y.extractLsb' (start + off) part := by
  refine BitVec.eq_of_getLsbD_eq fun i hi => ?_
  have hbit := getLsbD_congr_of_extractLsb' h (i := off + i) (by omega)
  simpa [hi, Nat.add_assoc] using hbit

theorem Flags.unpack_unfoldLo_congr (h : x.extractLsb' 4 4 = y.extractLsb' 4 4) :
    Flags.unpack (unfoldLo x) = Flags.unpack (unfoldLo y) := by
  have hbit (i : Nat) (hi : i < 4) : x.getLsbD (4 + i) = y.getLsbD (4 + i) := getLsbD_congr_of_extractLsb' h hi
  rw [Flags.unpack_unfoldLo, Flags.unpack_unfoldLo, hbit 0 (by decide), hbit 1 (by decide), hbit 2 (by decide),
    hbit 3 (by decide)]

/-- SET_PAIR of AF does not read wdata[3:0]. -/
theorem State.setPair_af_congr (s : State) (h : x.extractLsb' 4 12 = y.extractLsb' 4 12) :
    s.setPair .af x = s.setPair .af y := by
  have hhi : unfoldHi x = unfoldHi y := extractLsb'_congr_part h 4 8 (by decide)
  have hlo : Flags.unpack (unfoldLo x) = Flags.unpack (unfoldLo y) :=
    Flags.unpack_unfoldLo_congr (extractLsb'_congr_part h 0 4 (by decide))
  rw [State.setPair, State.setPair, hhi, hlo]

theorem hostSetPair_congr {sel : BitVec 2} (s : State) (h : x.extractLsb' 4 12 = y.extractLsb' 4 12)
    (hne : sel ≠ 0b11#2 → x = y) : hostSetPair sel x s = hostSetPair sel y s := by
  by_cases hsel : sel = 0b11#2
  · subst hsel
    exact congrArg Host.Outcome.next (s.setPair_af_congr h)
  · rw [hne hsel]

theorem hostWriteReg_congr (sel : BitVec 3) (s : State) (h : x.extractLsb' 0 8 = y.extractLsb' 0 8) :
    hostWriteReg sel x s = hostWriteReg sel y s := by
  rw [hostWriteReg, hostWriteReg, h]

theorem hostSetFlags_congr (s : State) (h : x.extractLsb' 4 4 = y.extractLsb' 4 4) :
    hostSetFlags x s = hostSetFlags y s :=
  congrArg (fun fl => Host.Outcome.next (s.writeFlags fl)) (Flags.unpack_unfoldLo_congr h)

end

/-- An edge reads its input through rst and the command alone. -/
theorem edge_congr {p q : CycleInput} {s : State} (hr : p.rst = q.rst) (h : runCommand p s = runCommand q s) :
    edge p s = edge q s := by
  rw [edge, edge, hr, h]

/-! ## What ADD leaves in A (R86) -/

/-- The exact sum, narrowed, is the sum of the two bytes. -/
theorem commit_execute_add_a (t : Target) (s : State) :
    (s.commit (execute .add t s)).a = s.readReg .a + s.readReg t := by
  rw [← narrow_add, Int.natCast_add]
  rfl

/-! ## The obligations -/

/-- Settles O21: only a command of a running block can be refused, and the idle input is NOP. -/
theorem refusedExactlyWhenNothingIsNamed : Obligations.RefusedExactlyWhenNothingIsNamed := by
  intro s r
  cases hin : s.inputs with
  | nil =>
    rw [step_of_no_input s hin, edge_eq_refused_iff, runCommand_of_nop s idleInput_cmd]
    simp
  | cons p rest =>
    have hstep : step s = edge p s.dropInput := by rw [step, State.nextInput, hin, List.headD_cons]
    rw [hstep, edge_eq_refused_iff, runCommand_eq_refused_iff]
    simp

/-- Settles O23: both edges run the same command, and each command reads only the bits the hypotheses name. -/
theorem unusedInputsDoNotMatter : Obligations.UnusedInputsDoNotMatter := by
  intro s p q rest hr hcmd hexec hwrite hpair hflags
  rw [step_of_cons, step_of_cons]
  refine edge_congr hr ?_
  obtain ⟨k, hk, -⟩ | ⟨hres, -⟩ := commandOf_cases p.cmd
  · have hk' : q.cmd = commandCodeOf k := hcmd ▸ hk
    cases k with
    | nop => rw [runCommand_of_nop _ hk, runCommand_of_nop _ hk']
    | exec => rw [runCommand_of_exec _ hk, runCommand_of_exec _ hk', hexec hk]
    | writeReg =>
      obtain ⟨hsel, hdata⟩ := hwrite hk
      rw [runCommand_of_writeReg _ hk, runCommand_of_writeReg _ hk', hsel, hostWriteReg_congr _ _ hdata]
    | setPair =>
      obtain ⟨hsel, hdata, hne⟩ := hpair hk
      rw [runCommand_of_setPair _ hk, runCommand_of_setPair _ hk', ← hsel, hostSetPair_congr _ hdata hne]
    | setFlags => rw [runCommand_of_setFlags _ hk, runCommand_of_setFlags _ hk', hostSetFlags_congr _ (hflags hk)]
  · rw [runCommand_of_reserved _ hres, runCommand_of_reserved _ (hcmd ▸ hres), hcmd]

/-- Settles O16: the whole next state is `writeReg` of the coded register, whose frame is known. -/
theorem writeRegCommand : Obligations.WriteRegCommand := by
  intro s p rest t hf hr hcmd hsel
  exact ⟨_, step_of_writeReg rest hf hr hcmd hsel, State.readReg_writeReg_self _ _ _, fun u hu => by simp [hu],
    by simp⟩

/-- Settles O25: the first edge leaves v in the target (O16), and the second runs ADD on that state. -/
theorem execSeesTheHostWrite : Obligations.ExecSeesTheHostWrite := by
  intro s v t p q hf hr hcmd hsel hv hr' hcmd' hinstr
  obtain ⟨w, hwrite, htarget, hother, -, hrunning, -, -, hin⟩ := writeRegCommand s p [q] t hf hr hcmd hsel
  have hdec : decode q.instr = .instr (Instr.ofPair .add t) := by rw [hinstr, decode_encode]
  have hadd : step w = .next (State.commit { w with inputs := [] } (execute .add t { w with inputs := [] })) := by
    calc step w
      _ = step { w with inputs := [q] } := by rw [← hin]
      _ = exec (Instr.ofPair .add t) { w with inputs := [] } := step_of_exec [] (hrunning.trans hf) hr' hcmd' hdec
      _ = _ := by rw [exec_eq_commit, Instr.family_ofPair, Instr.target_ofPair]
  refine ⟨_, (run_succ_of_next 1 _ w hwrite).trans (run_succ_of_next 0 w _ hadd), ?_⟩
  simp only [commit_execute_add_a, State.readReg_withInputs]
  by_cases ht : t = .a
  · rw [if_pos ht, ← ht, htarget, hv]
  · rw [if_neg ht, hother .a (Ne.symm ht), htarget, hv, State.readReg_a]

/-- Settles O5: each output is defined as the field it shows, and none as the pending inputs. -/
theorem outputsShowTheState : Obligations.OutputsShowTheState := fun _ _ =>
  ⟨rfl, rfl, rfl, rfl, rfl, rfl, rfl, rfl, rfl, rfl, rfl, rfl, rfl, rfl, rfl, rfl, rfl, rfl, rfl, rfl⟩

/-- Settles O12. -/
theorem stepRunsDecodedInstruction : Obligations.StepRunsDecodedInstruction :=
  fun _ _ rest _ hf hr hcmd hdec => step_of_exec rest hf hr hcmd hdec

/-- Settles O14. -/
theorem nopChangesNothing : Obligations.NopChangesNothing := by
  intro s p rest hf hr hcmd
  rw [step_cons_of_running s p rest hr hf, runCommand_of_nop _ hcmd]

/-- Settles O17: the code tables, then the step that finds no register. -/
theorem registerSelectCodes : Obligations.RegisterSelectCodes := by
  refine ⟨rfl, rfl, rfl, rfl, rfl, rfl, rfl, rfl, rfl, rfl, rfl, rfl, rfl, rfl, rfl, ?_⟩
  intro s p rest hf hr hcmd hsel
  have hstep := step_of_writeReg_noRegister rest hf hr hcmd hsel
  exact ⟨hstep, fun n => run_succ_of_refused n hstep⟩

/-- Settles O19: Unpack of wdata's low byte takes wdata[7:4]. -/
theorem setFlagsCommand : Obligations.SetFlagsCommand := by
  intro s p rest hf hr hcmd
  rw [step_of_setFlags rest hf hr hcmd, Flags.unpack_unfoldLo]
  rfl

/-- Settles O20. -/
theorem reservedCommandRefused : Obligations.ReservedCommandRefused := by
  intro s p rest hf hr hcmd
  have hstep := step_of_reserved rest hf hr hcmd
  exact ⟨hstep, fun n => run_succ_of_refused n hstep⟩

/-- Settles O22: each host command's next state is a write that leaves the fault fields. -/
theorem hostCommandsNeverFault : Obligations.HostCommandsNeverFault := by
  intro s p rest hf hr hcmd hnamed
  obtain hcmd | hcmd | hcmd := hcmd
  · obtain ⟨t, hsel, -⟩ | ⟨hsel, -⟩ := targetOf_cases p.regSel
    · exact ⟨_, step_of_writeReg rest hf hr hcmd hsel, by simp [hf]⟩
    · exact absurd hsel (hnamed hcmd)
  · exact ⟨_, step_of_setPair rest hf hr hcmd, by simp [hf]⟩
  · exact ⟨_, step_of_setFlags rest hf hr hcmd, by simp [hf]⟩

end Sys2Proof.Machine

/-! # Proofs for 41_arithmetic.md

The port words of an ALU8 family, exact results as sums and differences of bytes, the flags of two bytes, and from these
what each arithmetic family commits; then the adder taps and the relations between the families. -/

namespace Sys2Proof

/-! ## Port words of an ALU8 family (R53) -/

/-- The target code is or-ed into the word with code 000. -/
theorem encodePair_aluFamilyOf_eq_or (fff : BitVec 3) (t : Target) :
    encodePair (aluFamilyOf fff) t = plainWord (alu8Op fff 0b000#3) ||| (codeOf t).setWidth 9 := by
  cases t <;> decide +revert

theorem encode_of_aluFamily {i : Instr} (fff : BitVec 3) (h : i.family = aluFamilyOf fff) :
    encode i = plainWord (alu8Op fff 0b000#3) ||| (codeOf i.target).setWidth 9 := by
  rw [encode, h, encodePair_aluFamilyOf_eq_or]

end Sys2Proof

namespace Sys2Proof.Machine

/-! ## An instruction by its family (R72, R73) -/

theorem exec_of_family {i : Instr} {f : Family} (h : i.family = f) (s : State) :
    exec i s = .next (s.commit (execute f i.target s)) :=
  h ▸ exec_eq_commit i s

theorem exec_ofPair (f : Family) (t : Target) (s : State) :
    exec (Instr.ofPair f t) s = .next (s.commit (execute f t s)) := by
  rw [exec_eq_commit, Instr.family_ofPair, Instr.target_ofPair]

/-! ## Exact results of bytes (R10) -/

@[simp] theorem narrow_natCast_toNat (x : Byte) : narrow x.toNat = x := by
  rw [narrow, BitVec.ofInt_natCast, BitVec.ofNat_toNat, BitVec.setWidth_eq]

theorem narrow_add_int (x y : Int) : narrow (x + y) = narrow x + narrow y := BitVec.ofInt_add x y

/-- F.c as the byte it adds (R11). -/
theorem State.carryIn_eq_toNat (s : State) : s.carryIn = (if s.f.c then 1#8 else 0#8).toNat := by
  rw [State.carryIn]
  cases s.f.c <;> rfl

theorem State.carryIn_eq_ite (s : State) : s.carryIn = if s.f.c then 1 else 0 := by
  rw [State.carryIn]
  cases s.f.c <;> rfl

theorem State.carryIn_of_clear {s : State} (h : s.f.c = false) : s.carryIn = 0 := by
  rw [State.carryIn, h]
  rfl

/-! ## The flags of two bytes (R85 to R90) -/

section
variable (x y : Byte)

theorem halfCarryAdd_toNat :
    halfCarryAdd x.toNat y.toNat = decide ((x &&& 0x0F#8).toNat + (y &&& 0x0F#8).toNat > 0xF) := by
  rw [halfCarryAdd, lowNibble_toNat, lowNibble_toNat]

theorem halfCarrySub_toNat :
    halfCarrySub x.toNat y.toNat = decide (((x &&& 0x0F#8).toNat : Int) - ((y &&& 0x0F#8).toNat : Int) < 0) := by
  rw [halfCarrySub, lowNibble_toNat, lowNibble_toNat]

theorem halfCarrySub_eq_lt (a v : Nat) : halfCarrySub a v = decide (lowNibble a < lowNibble v) := by
  rw [halfCarrySub, decide_eq_decide]
  omega

theorem Flags.ofAdd_toNat :
    Flags.ofAdd x.toNat y.toNat =
      { z := decide (x + y = 0x00#8)
        n := false
        h := decide ((x &&& 0x0F#8).toNat + (y &&& 0x0F#8).toNat > 0xF)
        c := decide (x.toNat + y.toNat > 0xFF) } := by
  rw [Flags.ofAdd, halfCarryAdd_toNat, narrow_add_int, narrow_natCast_toNat, narrow_natCast_toNat]
  rfl

theorem Flags.ofAdc_toNat (ci : Byte) :
    Flags.ofAdc x.toNat y.toNat ci.toNat =
      { z := decide (x + y + ci = 0x00#8)
        n := false
        h := decide ((x &&& 0x0F#8).toNat + (y &&& 0x0F#8).toNat > 0xF)
        c := decide (x.toNat + y.toNat + ci.toNat > 0xFF) } := by
  simp only [Flags.ofAdc, halfCarryAdd_toNat, narrow_add_int, narrow_natCast_toNat]
  rfl

theorem Flags.ofSbc_toNat (tmp : Byte) :
    Flags.ofSbc x.toNat y.toNat tmp.toNat =
      { z := decide (x - tmp = 0x00#8)
        n := true
        h := decide (((x &&& 0x0F#8).toNat : Int) - ((y &&& 0x0F#8).toNat : Int) < 0)
        c := decide (x.toNat < tmp.toNat) } := by
  rw [Flags.ofSbc, halfCarrySub_toNat, narrow_sub]
  rfl

/-- SUB is SBC with nothing taken from the value. -/
theorem Flags.ofSub_eq_ofSbc (a v : Nat) : Flags.ofSub a v = Flags.ofSbc a v v := rfl

end

/-! ## Execute of each family on bytes (R86 to R90) -/

section
variable (t : Target) (s : State)

theorem aluAdd_eq :
    aluAdd t s = toAccumulator (s.a + s.readReg t) (Flags.ofAdd s.a.toNat (s.readReg t).toNat) := by
  simp only [aluAdd, State.accumulator, State.operand, narrow_add_int, narrow_natCast_toNat, State.readReg_a]

theorem aluAdc_eq :
    aluAdc t s = toAccumulator (s.a + s.readReg t + (if s.f.c then 1#8 else 0#8))
      (Flags.ofAdc s.a.toNat (s.readReg t).toNat (if s.f.c then 1#8 else 0#8).toNat) := by
  simp only [aluAdc, State.accumulator, State.operand, State.carryIn_eq_toNat, narrow_add_int, narrow_natCast_toNat,
    State.readReg_a]

theorem aluSub_eq :
    aluSub t s = toAccumulator (s.a - s.readReg t) (Flags.ofSub s.a.toNat (s.readReg t).toNat) := by
  rw [aluSub, State.accumulator, State.operand, narrow_sub, State.readReg_a]

/-- The wrap of decision D3 is the byte subtraction. -/
theorem aluSbc_eq :
    aluSbc t s = toAccumulator (s.a - (s.readReg t - (if s.f.c then 1#8 else 0#8)))
      (Flags.ofSbc s.a.toNat (s.readReg t).toNat (s.readReg t - (if s.f.c then 1#8 else 0#8)).toNat) := by
  simp only [aluSbc, State.accumulator, State.operand, State.carryIn_eq_toNat, narrow_sub, State.readReg_a]

end

/-- CP commits SUB's flags and keeps A (R90). -/
theorem commit_aluCp (t : Target) (s : State) : s.commit (aluCp t s) = { s.commit (aluSub t s) with a := s.a } := rfl

/-! ## The carry forms with the carry clear (R86 to R89) -/

section
variable (t : Target) {s : State} (hc : s.f.c = false)
include hc

theorem aluAdc_of_carry_clear : aluAdc t s = aluAdd t s := by
  rw [aluAdc, aluAdd, State.carryIn_of_clear hc, Flags.ofAdc, Flags.ofAdd, Int.natCast_zero, Int.add_zero, Nat.add_zero]

theorem aluSbc_of_carry_clear : aluSbc t s = aluSub t s := by
  have htmp : (narrow ((s.operand t : Int) - s.carryIn)).toNat = s.operand t := by
    rw [State.carryIn_of_clear hc, Int.natCast_zero, Int.sub_zero, State.operand, narrow_natCast_toNat]
  rw [aluSbc, aluSub, htmp]
  rfl

end

/-! ## The taps of the 4-bit and the 8-bit adder (R85) -/

/-- The borrow of a difference is its top bit, one bit wider; for the sum, `BitVec.uaddOverflow_eq`. -/
theorem usubOverflow_eq_msb {w : Nat} (x y : BitVec w) :
    BitVec.usubOverflow x y = (x.setWidth (w + 1) - y.setWidth (w + 1)).msb := by
  have hx : (x.setWidth (w + 1)).toNat = x.toNat := BitVec.toNat_setWidth_of_le (Nat.le_succ w)
  have hy : (y.setWidth (w + 1)).toNat = y.toNat := BitVec.toNat_setWidth_of_le (Nat.le_succ w)
  have hpow : 2 ^ (w + 1) = 2 * 2 ^ w := Nat.pow_succ'
  rw [BitVec.usubOverflow, BitVec.msb_eq_decide, decide_eq_decide, Nat.add_sub_cancel]
  obtain hlt | hle := Nat.lt_or_ge x.toNat y.toNat
  · rw [BitVec.toNat_sub_of_lt (by rwa [BitVec.lt_def, hx, hy]), hx, hy]
    omega
  · rw [BitVec.toNat_sub_of_le (by rwa [BitVec.le_def, hx, hy]), hx, hy]
    omega

theorem lowNibble_eq_extractLsb' (x : Byte) : lowNibble x.toNat = (x.extractLsb' 0 4).toNat := by
  rw [lowNibble_eq_mod, BitVec.extractLsb'_toNat]
  rfl

theorem halfCarryAdd_eq_uaddOverflow (x y : Byte) :
    halfCarryAdd x.toNat y.toNat = BitVec.uaddOverflow (x.extractLsb' 0 4) (y.extractLsb' 0 4) := by
  rw [halfCarryAdd, lowNibble_eq_extractLsb', lowNibble_eq_extractLsb']
  rfl

theorem halfCarrySub_eq_usubOverflow (x y : Byte) :
    halfCarrySub x.toNat y.toNat = BitVec.usubOverflow (x.extractLsb' 0 4) (y.extractLsb' 0 4) := by
  rw [halfCarrySub_eq_lt, lowNibble_eq_extractLsb', lowNibble_eq_extractLsb']
  rfl

/-- The flags of SUB and CP are the borrows of the two differences. -/
theorem Flags.ofSub_taps (x y : Byte) :
    (Flags.ofSub x.toNat y.toNat).h =
        ((x.extractLsb' 0 4).setWidth 5 - (y.extractLsb' 0 4).setWidth 5).msb ∧
      (Flags.ofSub x.toNat y.toNat).c = (x.setWidth 9 - y.setWidth 9).msb :=
  ⟨(halfCarrySub_eq_usubOverflow x y).trans (usubOverflow_eq_msb _ _), usubOverflow_eq_msb x y⟩

theorem Flags.ofAdd_taps (x y : Byte) :
    (Flags.ofAdd x.toNat y.toNat).h =
        ((x.extractLsb' 0 4).setWidth 5 + (y.extractLsb' 0 4).setWidth 5).msb ∧
      (Flags.ofAdd x.toNat y.toNat).c = (x.setWidth 9 + y.setWidth 9).msb :=
  ⟨(halfCarryAdd_eq_uaddOverflow x y).trans (BitVec.uaddOverflow_eq _ _), BitVec.uaddOverflow_eq x y⟩

/-! ## The obligations -/

/-- Settles O26. -/
theorem addResult : Obligations.AddResult := by
  intro i s h
  refine ⟨encode_of_aluFamily 0b000#3 h, ?_⟩
  rw [exec_of_family h, execute, aluAdd_eq, commit_toAccumulator, Flags.ofAdd_toNat]

/-- Settles O27. -/
theorem adcResult : Obligations.AdcResult := by
  intro i s h
  refine ⟨encode_of_aluFamily 0b001#3 h, ?_⟩
  rw [exec_of_family h, execute, aluAdc_eq, commit_toAccumulator, Flags.ofAdc_toNat, ← State.carryIn_eq_toNat,
    State.carryIn_eq_ite]

/-- Settles O28. -/
theorem subResult : Obligations.SubResult := by
  intro i s h
  refine ⟨encode_of_aluFamily 0b010#3 h, ?_⟩
  rw [exec_of_family h, execute, aluSub_eq, commit_toAccumulator, Flags.ofSub_eq_ofSbc, Flags.ofSbc_toNat]

/-- Settles O29. -/
theorem sbcResult : Obligations.SbcResult := by
  intro i s tmp h htmp
  refine ⟨encode_of_aluFamily 0b011#3 h, ?_⟩
  rw [exec_of_family h, execute, aluSbc_eq, ← htmp, commit_toAccumulator, Flags.ofSbc_toNat]

/-- Settles O30: CP commits what SUB does, but for A. -/
theorem cpResult : Obligations.CpResult := by
  intro i s h
  refine ⟨encode_of_aluFamily 0b111#3 h, ?_⟩
  rw [exec_of_family h, execute, commit_aluCp, aluSub_eq, commit_toAccumulator, Flags.ofSub_eq_ofSbc, Flags.ofSbc_toNat]

/-- Settles O31: SUB and CP commit the same flags. -/
theorem halfCarryIsTheNibbleTap : Obligations.HalfCarryIsTheNibbleTap := by
  refine fun i s => ⟨fun h => ⟨_, exec_of_family h s, Flags.ofAdd_taps s.a (s.readReg i.target)⟩, ?_⟩
  rintro (h | h)
  · exact ⟨_, exec_of_family h s, Flags.ofSub_taps s.a (s.readReg i.target)⟩
  · exact ⟨_, exec_of_family h s, Flags.ofSub_taps s.a (s.readReg i.target)⟩

/-- Settles O32. -/
theorem carryFormsWithoutCarry : Obligations.CarryFormsWithoutCarry := by
  intro t s hc
  simp only [exec_ofPair, execute, aluAdc_of_carry_clear t hc, aluSbc_of_carry_clear t hc, and_self]

/-- Settles O33: with the carry set, `tmp` is 0 - 1 = 0xFF for a zero register, and A - 1 for A itself. -/
theorem sbcWithCarryCorners : Obligations.SbcWithCarryCorners := by
  constructor
  · intro i s h hc hv
    have htmp : 0xFF#8 = s.readReg i.target - (if s.f.c then 1#8 else 0#8) := by rw [hv, hc]; rfl
    refine ⟨_, (sbcResult i s _ h htmp).2, ?_, ?_, ?_⟩
    · bv_omega
    · simp [hv]
    · rw [decide_eq_decide]
      bv_omega
  · intro s hc
    have htmp : s.a - 1#8 = s.readReg Instr.sbcAA.target - (if s.f.c then 1#8 else 0#8) := by rw [hc]; rfl
    refine ⟨_, (sbcResult .sbcAA s _ rfl htmp).2, ?_, ?_, ?_⟩
    · bv_omega
    · simp [Instr.target]
    · rw [decide_eq_decide]
      bv_omega

/-- Settles O34. -/
theorem cpLeavesTheFlagsOfSub : Obligations.CpLeavesTheFlagsOfSub := fun t s =>
  ⟨_, _, exec_ofPair .sub t s, exec_ofPair .cp t s, commit_aluCp t s⟩

end Sys2Proof.Machine

/-! # Proofs for 42_logic.md

What committing a logic result does, once for AND, OR and XOR; then each instruction, and the three on A itself. -/

namespace Sys2Proof.Machine

/-- Committing a logic result writes A and all four flags: h is the family's constant, n and c are 0 (R91 to R93). -/
theorem commit_logic (s : State) (res : Byte) (h : Bool) :
    s.commit (toAccumulator res (Flags.ofLogic res h)) =
      { s with a := res, f := { z := decide (res = 0x00#8), n := false, h := h, c := false } } := rfl

/-! ## The obligations -/

/-- Settles O36. -/
theorem andResult : Obligations.AndResult := by
  intro i s h
  refine ⟨encode_of_aluFamily 0b100#3 h, ?_⟩
  rw [exec_of_family h, execute, aluAnd, commit_logic, State.readReg_a]

/-- Settles O37. -/
theorem orResult : Obligations.OrResult := by
  intro i s h
  refine ⟨encode_of_aluFamily 0b110#3 h, ?_⟩
  rw [exec_of_family h, execute, aluOr, commit_logic, State.readReg_a]

/-- Settles O38. -/
theorem xorResult : Obligations.XorResult := by
  intro i s h
  refine ⟨encode_of_aluFamily 0b101#3 h, ?_⟩
  rw [exec_of_family h, execute, aluXor, commit_logic, State.readReg_a]

/-- Settles O39: XOR of A with itself is 0, and AND and OR are idempotent. -/
theorem logicOfAWithItself : Obligations.LogicOfAWithItself := by
  refine fun s => ⟨?xor, ?and, ?or⟩
  case xor =>
    rw [(xorResult .xorA s rfl).2, Instr.target, State.readReg_a, BitVec.xor_self]
    rfl
  case and => rw [(andResult .andA s rfl).2, Instr.target, State.readReg_a, BitVec.and_self]
  case or => rw [(orResult .orA s rfl).2, Instr.target, State.readReg_a, BitVec.or_self]

end Sys2Proof.Machine

/-! # Proofs for 43_inc_dec.md

The port words of format INCDEC, what INC and DEC compute as bytes, then each instruction and the two in sequence. -/

namespace Sys2Proof

/-! ## Port words of format INCDEC (R54) -/

/-- The target code is or-ed, three bits up, into the word with code 000. -/
theorem encodePair_incDecFamilyOf_eq_or (d : BitVec 1) (t : Target) :
    encodePair (incDecFamilyOf d) t = ((codeOf t).setWidth 9 <<< 3) ||| plainWord (incDecOp d 0b000#3) := by
  cases t <;> decide +revert

theorem encode_of_incDecFamily {i : Instr} (d : BitVec 1) (h : i.family = incDecFamilyOf d) :
    encode i = ((codeOf i.target).setWidth 9 <<< 3) ||| plainWord (incDecOp d 0b000#3) := by
  rw [encode, h, encodePair_incDecFamilyOf_eq_or]

end Sys2Proof

namespace Sys2Proof.Machine

/-! ## Flags and Execute on bytes (R94 to R96) -/

theorem Flags.ofInc_toNat (a res : Byte) (c : Bool) :
    Flags.ofInc a.toNat res c =
      { z := decide (res = 0x00#8), n := false, h := decide ((a &&& 0x0F#8).toNat + 1 > 0xF), c := c } := by
  rw [Flags.ofInc, lowNibble_toNat]
  rfl

theorem Flags.ofDec_toNat (a res : Byte) (c : Bool) :
    Flags.ofDec a.toNat res c =
      { z := decide (res = 0x00#8), n := true, h := decide (((a &&& 0x0F#8).toNat : Int) - 1 < 0), c := c } := by
  rw [Flags.ofDec, lowNibble_toNat]
  rfl

section
variable (t : Target) (s : State)

theorem aluInc_eq :
    aluInc t s = toTarget t (s.readReg t + 1#8) (Flags.ofInc s.a.toNat (s.readReg t + 1#8) s.f.c) := by
  have hres : narrow (s.operand t + 1) = s.readReg t + 1#8 := narrow_add (s.readReg t) 1#8
  rw [aluInc, hres, State.accumulator, State.readReg_a]

theorem aluDec_eq :
    aluDec t s = toTarget t (s.readReg t - 1#8) (Flags.ofDec s.a.toNat (s.readReg t - 1#8) s.f.c) := by
  have hres : narrow ((s.operand t : Int) - 1) = s.readReg t - 1#8 := narrow_sub (s.readReg t) 1#8
  rw [aluDec, hres, State.accumulator, State.readReg_a]

end

theorem readReg_commit_toTarget_self (s : State) (t : Target) (v : Byte) (fl : Flags) :
    (s.commit (toTarget t v fl)).readReg t = v := by
  rw [State.readReg_commit]
  exact if_pos rfl

/-! ## The obligations -/

/-- Settles O40: the value and F are Execute's, and the frame is that of every instruction. -/
theorem incResult : Obligations.IncResult := by
  intro i s h
  have hexec := exec_of_family h s
  obtain ⟨-, -, hregs, hfields⟩ := onlyTheDestinationChanges i s _ hexec
  refine ⟨encode_of_incDecFamily 0#1 h, _, hexec, ?value, hregs (.inl h), ?flags, hfields⟩
  case value => rw [execute, aluInc_eq, readReg_commit_toTarget_self]
  case flags => rw [execute, aluInc_eq, State.commit_f, toTarget, Flags.ofInc_toNat]

/-- Settles O41: the value and F are Execute's, and the frame is that of every instruction. -/
theorem decResult : Obligations.DecResult := by
  intro i s h
  have hexec := exec_of_family h s
  obtain ⟨-, -, hregs, hfields⟩ := onlyTheDestinationChanges i s _ hexec
  refine ⟨encode_of_incDecFamily 1#1 h, _, hexec, ?value, hregs (.inr (.inl h)), ?flags, hfields⟩
  case value => rw [execute, aluDec_eq, readReg_commit_toTarget_self]
  case flags => rw [execute, aluDec_eq, State.commit_f, toTarget, Flags.ofDec_toNat]

/-- Settles O42: the target takes `x + 1 - 1`, and no other register changes in either instruction. -/
theorem incThenDecRestores : Obligations.IncThenDecRestores := by
  intro t s
  obtain ⟨-, u, hinc, hut, hur, huf, -⟩ := incResult (.ofPair .inc t) s (Instr.family_ofPair _ _)
  obtain ⟨-, w, hdec, hwt, hwr, hwf, -⟩ := decResult (.ofPair .dec t) u (Instr.family_ofPair _ _)
  rw [Instr.target_ofPair] at hut hur hwt hwr
  have hcu : u.f.c = s.f.c := by rw [huf]
  have hcw : w.f.c = u.f.c := by rw [hwf]
  refine ⟨u, w, hinc, hdec, fun r => ?_, hcu, hcw.trans hcu⟩
  obtain rfl | hr := eq_or_ne r t
  · rw [hwt, hut, BitVec.add_sub_cancel]
  · rw [hwr r hr, hur r hr]

end Sys2Proof.Machine

/-! # Proofs for 44_swap.md

The port word of format CB, what SWAP does to the two nibbles of a byte, then the instruction, once and twice. -/

namespace Sys2Proof

/-! ## Port words of format CB (R55) -/

/-- The target code is or-ed into the word with code 000. -/
theorem encodePair_swap_eq_or (t : Target) :
    encodePair .swap t = prefixedWord (swapOp 0b000#3) ||| (codeOf t).setWidth 9 := by
  cases t <;> rfl

theorem encode_of_swap {i : Instr} (h : i.family = .swap) :
    encode i = prefixedWord (swapOp 0b000#3) ||| (codeOf i.target).setWidth 9 := by
  rw [encode, h, encodePair_swap_eq_or]

end Sys2Proof

namespace Sys2Proof.Machine

/-! ## Nibbles -/

theorem eq_of_nibbles_eq {x y : Byte} (hhi : x.extractLsb' 4 4 = y.extractLsb' 4 4)
    (hlo : x.extractLsb' 0 4 = y.extractLsb' 0 4) : x = y := by
  rw [← nibbles_append x, hhi, hlo, nibbles_append]

/-- R97's result: the low nibble four places up, the high one four places down. -/
def swapNibbles (v : Byte) : Byte := ((v &&& 0x0F#8) <<< 4) ||| ((v &&& 0xF0#8) >>> 4)

theorem swapNibbles_high (v : Byte) : (swapNibbles v).extractLsb' 4 4 = v.extractLsb' 0 4 := by
  refine BitVec.eq_of_getElem_eq fun k hk => ?_
  interval_cases k <;> simp [swapNibbles]

theorem swapNibbles_low (v : Byte) : (swapNibbles v).extractLsb' 0 4 = v.extractLsb' 4 4 := by
  refine BitVec.eq_of_getElem_eq fun k hk => ?_
  interval_cases k <;> simp [swapNibbles]

/-! ## What SWAP computes (R97) -/

theorem execute_swap (t : Target) (s : State) :
    execute .swap t s = toTarget t (swapNibbles (s.readReg t)) Flags.ofSwap := rfl

/-! ## The obligations -/

/-- Settles O43: the value and F are Execute's, and the frame is that of every instruction. -/
theorem swapResult : Obligations.SwapResult := by
  intro i s h
  have hexec := exec_of_family h s
  have hvalue := readReg_commit_toTarget_self s i.target (swapNibbles (s.readReg i.target)) Flags.ofSwap
  obtain ⟨-, -, hregs, hfields⟩ := onlyTheDestinationChanges i s _ hexec
  refine ⟨encode_of_swap h, _, hexec, ?high, ?low, hregs (.inr (.inr h)), ?flags, hfields⟩
  case high => rw [execute_swap, hvalue, swapNibbles_high]
  case low => rw [execute_swap, hvalue, swapNibbles_low]
  case flags => rw [execute_swap, State.commit_f, toTarget, Flags.ofSwap]

/-- Settles O44: the target is as it was by its two nibbles, and no other register changes in either instruction. -/
theorem swapTwiceRestores : Obligations.SwapTwiceRestores := by
  intro t s
  obtain ⟨-, u, hu, huhi, hulo, hur, -⟩ := swapResult (.ofPair .swap t) s (Instr.family_ofPair _ _)
  obtain ⟨-, w, hw, hwhi, hwlo, hwr, -⟩ := swapResult (.ofPair .swap t) u (Instr.family_ofPair _ _)
  rw [Instr.target_ofPair] at huhi hulo hur hwhi hwlo hwr
  refine ⟨u, w, hu, hw, fun r => ?twice, fun heq r => ?equalNibbles⟩
  case twice =>
    obtain rfl | hr := eq_or_ne r t
    · exact eq_of_nibbles_eq (hwhi.trans hulo) (hwlo.trans huhi)
    · rw [hwr r hr, hur r hr]
  case equalNibbles =>
    obtain rfl | hr := eq_or_ne r t
    · exact eq_of_nibbles_eq (huhi.trans heq) (hulo.trans heq.symm)
    · exact hur r hr

end Sys2Proof.Machine

/-! # Proofs for 60_exceptions.md

The faulted block, the words that take the fault, and the inputs that never lead there (their command, edge and step); from
these the obligations. -/

namespace Sys2Proof.Machine

/-! ## A faulted block and the entry into the fault (R98, R100) -/

theorem step_of_faulted {s : State} {p : CycleInput} (rest : List CycleInput) (hf : s.faulted = true)
    (hr : p.rst = false) : step { s with inputs := p :: rest } = .next { s with inputs := rest } := by
  rw [step_of_cons, edge_of_faulted p { s with inputs := rest } hr hf]

theorem not_implemented_of_forall_encode_ne {w : PortWord} (h : ∀ i, encode i ≠ w) : implemented w = false := by
  rw [← Bool.not_eq_true, implemented_iff_exists_encode]
  exact fun ⟨i, hi⟩ => h i hi

/-! ## Harmless inputs (R75, R81, R98) -/

/-- At an edge without reset, harmless says: not a reserved code, not a WRITE_REG of no register, not an EXEC of an
unimplemented word. -/
theorem harmless_iff_of_no_rst {p : CycleInput} (hr : p.rst = false) :
    harmless p = true ↔
      ¬(p.cmd = 0b101#3 ∨ p.cmd = 0b110#3 ∨ p.cmd = 0b111#3) ∧
      (p.cmd = 0b010#3 → p.regSel ≠ 0b110#3) ∧
      (p.cmd = 0b001#3 → implemented p.instr = true) := by
  simp [harmless, CycleInput.wf, CycleInput.commandNamed, CycleInput.registerNamed, commandCodeOf, hr, and_assoc,
    Decidable.imp_iff_not_or]

theorem harmless_idleInput : harmless idleInput = true := by decide

theorem execWord_of_implemented {w : PortWord} (s : State) (h : implemented w = true) :
    ∃ t, execWord w s = .next t ∧ t.faulted = s.faulted := by
  obtain ⟨i, -, e⟩ | ⟨hw, -⟩ := execWord_next w s
  · exact ⟨_, e, State.commit_faulted _ _⟩
  · simp [h] at hw

theorem hostWriteReg_of_named {sel : BitVec 3} (x : Word) (s : State) (h : sel ≠ 0b110#3) :
    ∃ t, hostWriteReg sel x s = .next t ∧ t.faulted = s.faulted := by
  obtain ⟨r, rfl, -⟩ | ⟨hsel, -⟩ := targetOf_cases sel
  · exact ⟨_, hostWriteReg_codeOf s r x, State.writeReg_faulted _ _ _⟩
  · exact absurd hsel h

/-- The command of a harmless edge has a meaning, and leaves the latch (R68, R75, R81, R98). -/
theorem runCommand_of_harmless {p : CycleInput} (s : State) (hr : p.rst = false) (hp : harmless p = true) :
    ∃ t, runCommand p s = .next t ∧ t.faulted = s.faulted := by
  obtain ⟨hnamed, hreg, hword⟩ := (harmless_iff_of_no_rst hr).mp hp
  obtain ⟨k, hcmd, -⟩ | ⟨hcmd, -⟩ := commandOf_cases p.cmd
  · cases k with
    | nop => exact ⟨s, runCommand_of_nop s hcmd, rfl⟩
    | exec =>
      rw [runCommand_of_exec s hcmd]
      exact execWord_of_implemented s (hword hcmd)
    | writeReg =>
      rw [runCommand_of_writeReg s hcmd]
      exact hostWriteReg_of_named p.wdata s (hreg hcmd)
    | setPair => exact ⟨_, runCommand_of_setPair s hcmd, State.setPair_faulted _ _ _⟩
    | setFlags => exact ⟨_, runCommand_of_setFlags s hcmd, State.writeFlags_faulted _ _⟩
  · exact absurd hcmd hnamed

theorem edge_of_harmless {p : CycleInput} {s : State} (hf : s.faulted = false) (hp : harmless p = true) :
    ∃ t, edge p s = .next t ∧ t.faulted = false := by
  cases hr : p.rst with
  | true => exact ⟨_, edge_of_rst p s hr, State.applyReset_faulted s⟩
  | false =>
    obtain ⟨t, ht, hft⟩ := runCommand_of_harmless s hr hp
    exact ⟨t, (edge_of_running p s hr hf).trans ht, hft.trans hf⟩

/-- The next input is a pending one or the idle one. -/
theorem harmless_nextInput {s : State} (hs : ∀ p ∈ s.inputs, harmless p = true) : harmless s.nextInput = true := by
  cases hin : s.inputs with
  | nil => rw [State.nextInput, hin, List.headD_nil, harmless_idleInput]
  | cons p rest =>
    rw [State.nextInput, hin, List.headD_cons]
    exact hs p (hin ▸ List.mem_cons_self)

/-- The invariant of a harmless run: the block is running and its pending inputs are harmless. -/
theorem step_of_harmless {s : State} (hf : s.faulted = false) (hs : ∀ p ∈ s.inputs, harmless p = true) :
    ∃ t, step s = .next t ∧ t.faulted = false ∧ ∀ p ∈ t.inputs, harmless p = true := by
  obtain ⟨t, hstep, hft⟩ := edge_of_harmless (s := s.dropInput) hf (harmless_nextInput hs)
  refine ⟨t, hstep, hft, fun p hp => hs p ?_⟩
  rw [step_next_inputs hstep] at hp
  exact List.mem_of_mem_tail hp

/-! ## The obligations -/

/-- Settles O55, by induction on the number of edges, with the invariant of `step_of_harmless`. -/
theorem harmlessInputsNeverStopTheBlock : Obligations.HarmlessInputsNeverStopTheBlock := by
  intro n
  induction n with
  | zero => exact fun s hf _ => hf
  | succ n ih =>
    intro s hf hs
    obtain ⟨t, hstep, hft, ht⟩ := step_of_harmless hf hs
    exact ⟨hf, t, hstep, ih t hft ht⟩

/-- Settles O48: the port word decodes to its instruction, whose commit leaves the latch. -/
theorem everyInstructionCompletesInItsCycle : Obligations.EveryInstructionCompletesInItsCycle := by
  intro i s p rest hf hr hcmd hinstr
  have hdec : decode p.instr = .instr i := by rw [hinstr, decode_encode]
  exact ⟨_, (step_of_exec rest hf hr hcmd hdec).trans (exec_eq_commit i _), by simp [hf], by simp⟩

/-- Settles O49: no instruction has the word, so EXEC of it is the fault entry. -/
theorem unimplementedWordTakesTheFault : Obligations.UnimplementedWordTakesTheFault := by
  intro s p rest hf hr hcmd hw
  rw [step_cons_of_running s p rest hr hf, runCommand_of_exec _ hcmd,
    execWord_of_not_implemented _ _ (not_implemented_of_forall_encode_ne hw)]
  rfl

/-- Settles O50: the next state is O49's, and the outputs show its fields. -/
theorem faultShowsAtTheOutputs : Obligations.FaultShowsAtTheOutputs := fun s p rest hf hr hcmd hw =>
  ⟨_, unimplementedWordTakesTheFault s p rest hf hr hcmd hw, rfl⟩

/-- Settles O52, by induction on the presented inputs: each is dropped, and the rest find the block as it was. -/
theorem faultLastsUntilReset : Obligations.FaultLastsUntilReset := by
  intro ps rest s hf hps
  induction ps with
  | nil => exact run_zero _
  | cons p ps ih =>
    obtain ⟨hr, hps⟩ := List.forall_mem_cons.mp hps
    exact (run_succ_of_next ps.length _ _ (step_of_faulted (ps ++ rest) hf hr)).trans (ih hps)

/-- Settles O51: reset comes before the latch, and the latch before the command. -/
theorem faultIsSticky : Obligations.FaultIsSticky := fun s p rest hf =>
  ⟨step_of_faulted rest hf, fun hr =>
    ⟨_, (step_of_cons s p rest).trans (edge_of_rst p _ hr), State.applyReset_faulted _⟩⟩

end Sys2Proof.Machine

/-! # Proofs for 70_reset_and_hazards.md

Back-to-back EXECs (R120): an edge commits its instruction on the state the edge before left, whatever is pending behind it;
from this the two-word example, and from the rules of a reset edge its whole next state. -/

namespace Sys2Proof.Machine

/-! ## EXEC with more inputs pending (R72, R120) -/

section
variable (s : State) (l : List CycleInput)

theorem State.commit_withInputs (r : Result) :
    State.commit { s with inputs := l } r = { s.commit r with inputs := l } := by
  unfold State.commit
  cases r.dest with
  | none => exact s.writeFlags_withInputs r.flags l
  | some t => exact congrArg (State.writeFlags · r.flags) (s.writeReg_withInputs t r.value l)

/-- Execute does not look at the pending inputs. -/
theorem execute_withInputs (f : Family) (t : Target) : execute f t { s with inputs := l } = execute f t s :=
  execute_congr (State.readReg_withInputs s l) f t fun _ => rfl

end

/-- A run whose first edge is an EXEC goes on from that instruction's commit, with the inputs behind it still pending. -/
theorem run_succ_of_exec {s : State} {p : CycleInput} {i : Instr} (n : Nat) (rest : List CycleInput)
    (hf : s.faulted = false) (hr : p.rst = false) (hcmd : p.cmd = 0b001#3) (hdec : decode p.instr = .instr i) :
    Sys2Proof.core.run (n + 1) { s with inputs := p :: rest } =
      Sys2Proof.core.run n { s.commit (execute i.family i.target s) with inputs := rest } := by
  refine run_succ_of_next n _ _ ?_
  rw [step_of_exec rest hf hr hcmd hdec, exec_eq_commit, execute_withInputs, State.commit_withInputs]

/-! ## What ADD and ADC commit (R86, R87) -/

section
variable (t : Target) (s : State)

theorem commit_execute_add :
    s.commit (execute .add t s) =
      { s with a := s.a + s.readReg t, f := Flags.ofAdd s.a.toNat (s.readReg t).toNat } := by
  rw [execute, aluAdd_eq, commit_toAccumulator]

theorem commit_execute_adc :
    s.commit (execute .adc t s) =
      { s with
        a := s.a + s.readReg t + (if s.f.c then 1#8 else 0#8)
        f := Flags.ofAdc s.a.toNat (s.readReg t).toNat (if s.f.c then 1#8 else 0#8).toNat } := by
  rw [execute, aluAdc_eq, commit_toAccumulator]

end

/-! ## The obligations -/

/-- Settles O35: ADC runs on the state ADD committed, whose F.c is the carry of A + B. -/
theorem adcACAfterAddABSeesItsCarry : Obligations.AdcACAfterAddABSeesItsCarry := by
  intro s p q hf hr hcmd hinstr hr' hcmd' hinstr'
  have hadd : decode p.instr = .instr .addAB := hinstr ▸ decode_encode .addAB
  have hadc : decode q.instr = .instr .adcAC := hinstr' ▸ decode_encode .adcAC
  have hrunning : (s.commit (execute .add .b s)).faulted = false := by rw [State.commit_faulted, hf]
  refine ⟨_, (run_succ_of_exec 1 [q] hf hr hcmd hadd).trans
    (run_succ_of_exec 0 [] hrunning hr' hcmd' hadc), ?_⟩
  have hcarry : (Flags.ofAdd s.a.toNat s.b.toNat).c = decide (s.a.toNat + s.b.toNat > 0xFF) := rfl
  simp only [Instr.family, Instr.target, commit_execute_add, commit_execute_adc, State.readReg_b, State.readReg_c, hcarry,
    decide_eq_true_eq, and_self]

/-- Settles O56: reset comes first at an edge, and each field of the next state is at its reset value. -/
theorem resetEdgeFromAnyState : Obligations.ResetEdgeFromAnyState := fun s p rest hr =>
  ⟨_, (step_of_cons s p rest).trans (edge_of_rst p _ hr), State.readReg_applyReset _, State.applyReset_f _,
    State.applyReset_faulted _, State.applyReset_faultCause _, State.applyReset_faultInstr _, State.applyReset_inputs _⟩

end Sys2Proof.Machine

/-! # Proofs for the placement of inputs

The two choices of the model: EXEC of an opcode-table word placed before what is pending (log entries 3 and 4), and the idle
input when nothing is pending (log entry 2). Each is a rule of `step` about its input and then a rule of the edge. -/

namespace Sys2Proof.Machine

/-- An opcode-table word decodes as the port word it is placed on. -/
theorem decodeTableWord_eq_some_iff {nbits w : Nat} {i : Instr} :
    decodeTableWord nbits w = some i ↔ decode (portWordOfTable nbits w) = .instr i := by
  unfold decodeTableWord
  cases decode (portWordOfTable nbits w) <;> simp

/-- Settles O13: the placed input is what the edge samples, and on a running block it is EXEC of the decoded word. -/
theorem fetchedWordRunsNext : Obligations.FetchedWordRunsNext := fun s nbits w i hf hw => calc
  step (s.withFetchWord nbits w) = edge (execInput (portWordOfTable nbits w)) s := step_of_present s _
  _ = runCommand (execInput (portWordOfTable nbits w)) s := edge_of_running _ s (execInput_rst _) hf
  _ = execWord (portWordOfTable nbits w) s := runCommand_of_exec s (execInput_cmd _)
  _ = exec i s := execWord_of_instr _ s i (decodeTableWord_eq_some_iff.mp hw)

/-- Settles O15: the idle input resets nothing, a faulted block ignores it, and to a running block it is NOP. -/
theorem noInputIsIdle : Obligations.NoInputIsIdle := by
  intro s hin
  rw [step_of_no_input s hin]
  cases hf : s.faulted with
  | true => exact edge_of_faulted idleInput s idleInput_rst hf
  | false => rw [edge_of_running idleInput s idleInput_rst hf, runCommand_of_nop s idleInput_cmd]

end Sys2Proof.Machine
